-- ==== Sys2Proof/Word.lean ====
section
/-! DEFINITION. The words of the HN7: 64-bit registers (R83) and 8-bit bytes of memory. -/

namespace Sys2Proof

/-- A 64-bit register or memory word (R83). -/
abbrev Word := BitVec 64

/-- One byte of memory. -/
abbrev Byte := BitVec 8

end Sys2Proof
end

