-- ==== Sys2Proof/Syntax.lean ====
section
/-! DEFINITION. The syntax of the HN7's steps: one constructor for each row of spec/opcode_table.json.
A row with a word is a control word (R54 to R59) or an operator word (R62, R64). A row without a word is an
event of the machine around them. The arguments of an event say which of several like things it happens to. -/

namespace Sys2Proof

/-- A control-core register number (R83). -/
abbrev Reg := BitVec 5

/-- The W field of a grouped operand (R56): single, pair, quad, octet. -/
inductive Width where
  | w1 | w2 | w4 | w8
deriving DecidableEq, Repr

/-- The engines of a core (R2). -/
inductive Eng where
  | m | v | s | c
deriving DecidableEq, Repr

/-- The fields of an operator word below its opcode (R62). -/
structure OpFields where
  srcA : BitVec 3
  srcB : BitVec 3
  dest0 : BitVec 7
  dest1 : BitVec 7
  tag : BitVec 4
deriving DecidableEq, Repr

/-- What a remote request asks of the owner (R339, R346). -/
inductive RemoteOp where
  | read
  | write
  | invoke (sub : Nat)
deriving DecidableEq, Repr

/-- A request to the owner of an object (R339): what the packet carries. `x` is the base coordinate, dimension 1 first,
`rows` the dimension-2 coordinates, `order` the Chest order that the answer names, `mode` the rounding mode that the firing took at issue
(R39, R245; log 62), and `replayOf` the ticket, block and generation that it replays (R341, R344). -/
structure RemoteReq where
  dev : Nat
  core : Nat
  ctx : Nat
  order : Nat
  handle : Nat
  op : RemoteOp
  fmt : Nat
  x : List Nat
  rows : List Nat
  cols : Nat
  data : List Byte
  v : Word
  w : Word
  mode : Nat
  dedup : Nat
  replayOf : Option (Nat × Nat × Nat)
deriving DecidableEq, Repr

/-- An image in a flash slot (R362): its signature's verdict is Config's, over its bytes. -/
structure FlashImage where
  version : Nat
  bytes : List Byte
deriving DecidableEq, Repr

/-- A launch record of an image (R82): its address, where the loader places its completion record, and the handle and base of its
completion counter. -/
structure GraphLaunch where
  addr : Nat
  crec : Nat
  handle : Nat
  base : Nat
deriving DecidableEq, Repr

/-- The content of a block that is declared absent (R350): the object's handle, the block, and its bytes. -/
structure Backing where
  handle : Nat
  block : Nat
  bytes : List Byte
deriving DecidableEq, Repr

/-- What the loader places on this device (R82, R350, R351): memory contents, records installed with CTX 255, launch records, and the
backing content of absent blocks. -/
structure GraphImage where
  writes : List (Nat × List Byte)
  objs : List (Nat × BitVec 1024)
  launches : List GraphLaunch
  backing : List Backing
deriving DecidableEq, Repr

/-- An SPDM message received on a port (R334): the device id that its certificate attests, its protocol version and
the facts its check rests on. -/
structure SpdmMsg where
  dev : Nat
  minor : Nat
  baseAsym : Nat
  extAsym : List (Nat × Nat × Nat)
  hashSha256 : Bool
  measSha256 : Bool
  aeadAesGcm : Bool
  dheP384 : Bool
  bytes : List Byte
deriving DecidableEq, Repr

/-- The steps of the HN7: the rows of spec/opcode_table.json, in the table's order. -/
inductive Instr where
  /-- ADD (R97). Register form: gd gets ga plus gb. -/
  | add (d : Reg) (a : Reg) (b : Reg)
  /-- SUB (R97). Register form: gd gets ga minus gb. -/
  | sub (d : Reg) (a : Reg) (b : Reg)
  /-- MUL (R97). Register form: gd gets the low 64 bits of the product. -/
  | mul (d : Reg) (a : Reg) (b : Reg)
  /-- MULH (R97). Register form: gd gets the high 64 bits of the signed product. -/
  | mulh (d : Reg) (a : Reg) (b : Reg)
  /-- DIV (R97). Register form: signed division truncated toward zero, with the stated results for a zero divisor and for overflow. -/
  | div (d : Reg) (a : Reg) (b : Reg)
  /-- REM (R97). Register form: signed remainder, with the stated results for a zero divisor and for overflow. -/
  | rem (d : Reg) (a : Reg) (b : Reg)
  /-- MIN (R97). Register form: signed minimum. -/
  | min (d : Reg) (a : Reg) (b : Reg)
  /-- MAX (R97). Register form: signed maximum. -/
  | max (d : Reg) (a : Reg) (b : Reg)
  /-- AND (R97). Register form: bitwise AND. -/
  | and (d : Reg) (a : Reg) (b : Reg)
  /-- OR (R97). Register form: bitwise OR. -/
  | or (d : Reg) (a : Reg) (b : Reg)
  /-- XOR (R97). Register form: bitwise XOR. -/
  | xor (d : Reg) (a : Reg) (b : Reg)
  /-- SHL (R97). Register form: shift left by gb[5:0]. -/
  | shl (d : Reg) (a : Reg) (b : Reg)
  /-- SHR (R97). Register form: logical shift right by gb[5:0]. -/
  | shr (d : Reg) (a : Reg) (b : Reg)
  /-- SRA (R97). Register form: arithmetic shift right by gb[5:0]. -/
  | sra (d : Reg) (a : Reg) (b : Reg)
  /-- SLT (R97). Register form: gd gets 1 if ga is below gb when both are read as signed, and 0 otherwise. -/
  | slt (d : Reg) (a : Reg) (b : Reg)
  /-- SLTU (R97). Register form: gd gets 1 if ga is below gb when both are read as unsigned, and 0 otherwise. -/
  | sltu (d : Reg) (a : Reg) (b : Reg)
  /-- CLZ (R97). gd gets the number of leading zero bits of ga. -/
  | clz (d : Reg) (a : Reg)
  /-- POPC (R97). gd gets the number of one bits of ga. -/
  | popc (d : Reg) (a : Reg)
  /-- MOV (R99). Copies an aligned register group to another group, all at once. -/
  | mov (d : Reg) (a : Reg) (w : Width)
  /-- ADD_IMM (R97). Immediate form of ADD. -/
  | addImm (d : Reg) (a : Reg) (i : BitVec 16)
  /-- SUB_IMM (R97). Immediate form of SUB. -/
  | subImm (d : Reg) (a : Reg) (i : BitVec 16)
  /-- MUL_IMM (R97). Immediate form of MUL. -/
  | mulImm (d : Reg) (a : Reg) (i : BitVec 16)
  /-- MULH_IMM (R97). Immediate form of MULH. -/
  | mulhImm (d : Reg) (a : Reg) (i : BitVec 16)
  /-- DIV_IMM (R97). Immediate form of DIV, with a nonzero divisor. -/
  | divImm (d : Reg) (a : Reg) (i : BitVec 16)
  /-- REM_IMM (R97). Immediate form of REM, with a nonzero divisor. -/
  | remImm (d : Reg) (a : Reg) (i : BitVec 16)
  /-- MIN_IMM (R97). Immediate form of MIN. -/
  | minImm (d : Reg) (a : Reg) (i : BitVec 16)
  /-- MAX_IMM (R97). Immediate form of MAX. -/
  | maxImm (d : Reg) (a : Reg) (i : BitVec 16)
  /-- AND_IMM (R97). Immediate form of AND, on the sign-extended immediate. -/
  | andImm (d : Reg) (a : Reg) (i : BitVec 16)
  /-- OR_IMM (R97). Immediate form of OR, on the sign-extended immediate. -/
  | orImm (d : Reg) (a : Reg) (i : BitVec 16)
  /-- XOR_IMM (R97). Immediate form of XOR, on the sign-extended immediate. -/
  | xorImm (d : Reg) (a : Reg) (i : BitVec 16)
  /-- SHL_IMM (R97). Immediate form of SHL, with a shift of 0 to 63. -/
  | shlImm (d : Reg) (a : Reg) (i : BitVec 16)
  /-- SHR_IMM (R97). Immediate form of SHR, with a shift of 0 to 63. -/
  | shrImm (d : Reg) (a : Reg) (i : BitVec 16)
  /-- SRA_IMM (R97). Immediate form of SRA, with a shift of 0 to 63. -/
  | sraImm (d : Reg) (a : Reg) (i : BitVec 16)
  /-- SLT_IMM (R97). Immediate form of SLT. -/
  | sltImm (d : Reg) (a : Reg) (i : BitVec 16)
  /-- SLTU_IMM (R97). Immediate form of SLTU, with the immediate sign-extended first. -/
  | sltuImm (d : Reg) (a : Reg) (i : BitVec 16)
  /-- LUI (R98). gd gets the sign-extended immediate shifted left by 16. -/
  | lui (d : Reg) (i : BitVec 16)
  /-- ADPC (R98). gd gets pc plus four times the sign-extended immediate. -/
  | adpc (d : Reg) (i : BitVec 16)
  /-- JAL (R103). Jumps by a word offset and writes the return address to gd. -/
  | jal (d : Reg) (o : BitVec 21)
  /-- JALR (R103). Jumps to ga plus the immediate and writes the return address to gd; a misaligned target traps. -/
  | jalr (d : Reg) (a : Reg) (i : BitVec 16)
  /-- BEQ (R102). Branches if ga equals gb. -/
  | beq (a : Reg) (b : Reg) (o : BitVec 16)
  /-- BNE (R102). Branches if ga differs from gb. -/
  | bne (a : Reg) (b : Reg) (o : BitVec 16)
  /-- BLT (R102). Branches if ga is below gb when both are read as signed. -/
  | blt (a : Reg) (b : Reg) (o : BitVec 16)
  /-- BGE (R102). Branches if ga is at least gb when both are read as signed. -/
  | bge (a : Reg) (b : Reg) (o : BitVec 16)
  /-- BLTU (R102). Branches if ga is below gb when both are read as unsigned. -/
  | bltu (a : Reg) (b : Reg) (o : BitVec 16)
  /-- BGEU (R102). Branches if ga is at least gb when both are read as unsigned. -/
  | bgeu (a : Reg) (b : Reg) (o : BitVec 16)
  /-- LOOP (R104). Arms the hardware loop with count ga, or skips the body when ga is 0. -/
  | loop (a : Reg) (o : BitVec 16)
  /-- LOOPX (R105). Disarms the hardware loop and clears k.lcount. -/
  | loopx
  /-- LDB (R100). Loads one byte, sign-extended. -/
  | ldb (d : Reg) (a : Reg) (i : BitVec 14)
  /-- LDBU (R100). Loads one byte, zero-extended. -/
  | ldbu (d : Reg) (a : Reg) (i : BitVec 14)
  /-- LDH (R100). Loads two bytes, sign-extended. -/
  | ldh (d : Reg) (a : Reg) (i : BitVec 14)
  /-- LDHU (R100). Loads two bytes, zero-extended. -/
  | ldhu (d : Reg) (a : Reg) (i : BitVec 14)
  /-- LDW (R100). Loads four bytes, sign-extended. -/
  | ldw (d : Reg) (a : Reg) (i : BitVec 14)
  /-- LDD (R100). Loads eight bytes. -/
  | ldd (d : Reg) (a : Reg) (i : BitVec 14)
  /-- LDV (R100). Loads a register group with consecutive 8-byte accesses in ascending address order. -/
  | ldv (d : Reg) (a : Reg) (w : Width) (i : BitVec 14)
  /-- STB (R100). Stores one byte. -/
  | stb (r : Reg) (a : Reg) (i : BitVec 14)
  /-- STH (R100). Stores two bytes. -/
  | sth (r : Reg) (a : Reg) (i : BitVec 14)
  /-- STW (R100). Stores four bytes. -/
  | stw (r : Reg) (a : Reg) (i : BitVec 14)
  /-- STD (R100). Stores eight bytes. -/
  | std (r : Reg) (a : Reg) (i : BitVec 14)
  /-- STV (R100). Stores a register group with consecutive 8-byte accesses in ascending address order. -/
  | stv (r : Reg) (a : Reg) (w : Width) (i : BitVec 14)
  /-- AMADD (R101). Atomically adds gb to the 8 bytes at ga and returns the old value in gd. -/
  | amadd (d : Reg) (a : Reg) (b : Reg)
  /-- AMSWP (R101). Atomically swaps gb into the 8 bytes at ga and returns the old value in gd. -/
  | amswp (d : Reg) (a : Reg) (b : Reg)
  /-- AMCAS (R101). Atomic compare and swap against gd, returning the old value in gd. -/
  | amcas (d : Reg) (a : Reg) (b : Reg)
  /-- KRD (R108). Reads a control register into gd. -/
  | krd (d : Reg) (k : BitVec 12)
  /-- KWR (R108). Writes ga into a control register, applying the RW, W1C and RO rules of each field. -/
  | kwr (a : Reg) (k : BitVec 12)
  /-- KSET (R108). Sets the bits of ga in a control register, or clears them in W1C fields. -/
  | kset (a : Reg) (k : BitVec 12)
  /-- KCLR (R108). Clears the bits of ga in the RW fields of a control register. -/
  | kclr (a : Reg) (k : BitVec 12)
  /-- FENCE_ENGINE (R107). Engine-scope fence; it orders only program order and never waits. -/
  | fenceEngine
  /-- FENCE_CORE (R107). Core-scope fence; it drains the store buffer and waits until earlier effects are performed at core scope. -/
  | fenceCore
  /-- FENCE_QUAD (R107). Quad-scope fence. -/
  | fenceQuad
  /-- FENCE_CLUSTER (R107). Cluster-scope fence. -/
  | fenceCluster
  /-- FENCE_DIE (R107). Die-scope fence. -/
  | fenceDie
  /-- FENCE_DEVICE (R107). Device-scope fence. -/
  | fenceDevice
  /-- FENCE_SYSTEM (R107). System-scope fence; it also waits on the context's Bench entries. -/
  | fenceSystem
  /-- FENCE_COMPLETE (R226). A waiting fence completes once the effects ordered before it are performed at its scope. -/
  | fenceComplete (core : Nat)
  /-- GLOAD (R109). Checks a graph image block and loads its operator words, side records and destination entries into the tables. -/
  | gload (d : Reg) (a : Reg)
  /-- GLOAD_SWITCH_WRITE (R303). A switching GLOAD writes its block and arms the new section once the old sections' firings in progress have sent. -/
  | gloadSwitchWrite (core : Nat)
  /-- DSET (R110). Writes one destination-table entry, or reports a rejection status in gd. -/
  | dset (d : Reg) (a : Reg) (b : Reg)
  /-- INJ (R111). Checks and injects one token from a register quad. -/
  | inj (b : Reg)
  /-- INJP (R112). Checks and injects one predicate token. -/
  | injp (a : Reg) (b : Reg)
  /-- INJ_ACCEPT (R111). A waiting INJ or INJP completes when the network takes its token. -/
  | injAccept (core : Nat)
  /-- TRECV (R113). Takes the oldest token from the receive queue, or waits for one. -/
  | trecv (d : Reg)
  /-- TRECV_RETURN (R113). A waiting TRECV completes when a token enters the receive queue, and it releases the previous tile. -/
  | trecvReturn (core : Nat)
  /-- ECALL (R114). Traps with cause 8. -/
  | ecall
  /-- EBREAK (R114). Traps with cause 9, or stops the core under the debugger. -/
  | ebreak
  /-- ERET (R114). Returns from a trap and restores PRIV, IE, LACT and HND. -/
  | eret
  /-- WFE (R114). Waits until EVT, RQN or a PEND bit is set, then clears EVT. -/
  | wfe
  /-- WFE_WAKE (R114). A waiting WFE completes when EVT, RQN or a PEND bit becomes 1. -/
  | wfeWake (core : Nat)
  /-- SEV (R114). Sets EVT on every control core of the partition. -/
  | sev
  /-- ORSET (R238). Privileged: installs an object record, or updates its permissions and modes. -/
  | orset (a : Reg) (b : Reg)
  /-- ORINV (R238). Privileged: invalidates an object record and posts the counter when the old generation drains. -/
  | orinv (a : Reg) (b : Reg)
  /-- ORMOV (R238). Privileged: starts the relocation of a resident object. -/
  | ormov (a : Reg) (b : Reg)
  /-- ORRES (R241). Privileged: writes residency entries of a sparse object. -/
  | orres (a : Reg) (b : Reg)
  /-- LNCH (R279). Control-core form: queues a child launch record and returns a status with the launch id. -/
  | lnch (d : Reg) (a : Reg)
  /-- LNCH_ACCEPT (R278). A waiting LNCH completes when its record enters the device launch queue. -/
  | lnchAccept (core : Nat)
  /-- ASYNC_TRAP_ENTRY (R93). A pending asynchronous cause is taken at an instruction boundary while IE is 1. -/
  | asyncTrapEntry (core : Nat)
  /-- MMA (R122). Accumulates A·B into an accumulator set. -/
  | mma (f : OpFields)
  /-- MMAZ (R122). Zeroes an accumulator set, then accumulates A·B. -/
  | mmaz (f : OpFields)
  /-- MMAT (R122). Accumulates Aᵀ·B into an accumulator set. -/
  | mmat (f : OpFields)
  /-- MMATZ (R122). Zeroes an accumulator set, then accumulates Aᵀ·B. -/
  | mmatz (f : OpFields)
  /-- CMMA (R124). Accumulates a complex product into a pair of accumulator sets. -/
  | cmma (f : OpFields)
  /-- CMMAZ (R124). Zeroes both sets, then accumulates a complex product. -/
  | cmmaz (f : OpFields)
  /-- QMMA (R123). Accumulates a scaled product of a dense tile and a half-digit tile. -/
  | qmma (f : OpFields)
  /-- QMMAZ (R123). Zeroes the set, then performs QMMA. -/
  | qmmaz (f : OpFields)
  /-- ACCLD (R126). Loads a tile into an accumulator set or into σ. -/
  | accld (f : OpFields)
  /-- ACCST (R126). Narrows an accumulator region into a new dense tile. -/
  | accst (f : OpFields)
  /-- ACCZ (R126). Zeroes an accumulator set and its poison mark. -/
  | accz (f : OpFields)
  /-- ACCSCL (R126). Scales an accumulator set by a scalar or a tile. -/
  | accscl (f : OpFields)
  /-- MCONT (R310). Issued by the HN7 at resumption: resumes a halted MMA-family firing from its continuation block. -/
  | mcont (f : OpFields)
  /-- TLD (R131). Loads one tile of an object into plane form. -/
  | tld (f : OpFields)
  /-- TST (R132). Converts a tile and stores it into an object, then sends a completion. -/
  | tst (f : OpFields)
  /-- SLD (R133). Reads one element as a data-scalar. -/
  | sld (f : OpFields)
  /-- SST (R134). Writes one element. -/
  | sst (f : OpFields)
  /-- TLDG (R242). Gathers rows chosen by an index tile. -/
  | tldg (f : OpFields)
  /-- TSTS (R243). Scatters rows to places chosen by an index tile. -/
  | tsts (f : OpFields)
  /-- ATAD (R245). Atomic add to one element. -/
  | atad (f : OpFields)
  /-- ATMN (R245). Atomic minimum on one element. -/
  | atmn (f : OpFields)
  /-- ATMX (R245). Atomic maximum on one element. -/
  | atmx (f : OpFields)
  /-- ATXC (R245). Atomic exchange of one element. -/
  | atxc (f : OpFields)
  /-- ATCS (R245). Atomic compare and swap of one element, with a predicate result. -/
  | atcs (f : OpFields)
  /-- RPUSH (R248). Pushes a tile, or an EOS or error-EOS marker, into a ring. -/
  | rpush (f : OpFields)
  /-- RPOP (R249). Pops a ring slot and sends its tile or marker. -/
  | rpop (f : OpFields)
  /-- FNC_ENGINE (R246). Engine-scope fence operator that forwards its token. -/
  | fncEngine (f : OpFields)
  /-- FNC_CORE (R246). Core-scope fence operator. -/
  | fncCore (f : OpFields)
  /-- FNC_QUAD (R246). Quad-scope fence operator. -/
  | fncQuad (f : OpFields)
  /-- FNC_CLUSTER (R246). Cluster-scope fence operator. -/
  | fncCluster (f : OpFields)
  /-- FNC_DIE (R246). Die-scope fence operator. -/
  | fncDie (f : OpFields)
  /-- FNC_DEVICE (R246). Device-scope fence operator. -/
  | fncDevice (f : OpFields)
  /-- FNC_SYSTEM (R246). System-scope fence operator; it also waits on the Bench and on remote accesses. -/
  | fncSystem (f : OpFields)
  /-- STADV (R269). Adds 1 to the released-stage count RSTG of the context on this core. -/
  | stadv (f : OpFields)
  /-- CNADD (R271). Adds to a counter as a release at its home scope. -/
  | cnadd (f : OpFields)
  /-- CNWT (R272). Waits until the named counters of one row reach a target. -/
  | cnwt (f : OpFields)
  /-- CNRD (R273). Reads one counter strongly. -/
  | cnrd (f : OpFields)
  /-- SHOP (R274). Queues the opening of an object's shadow. -/
  | shop (f : OpFields)
  /-- PUBL (R274). Queues the publication of a shadow as the new version. -/
  | publ (f : OpFields)
  /-- NMIV (R275). Invokes a near-memory subgraph on an element. -/
  | nmiv (f : OpFields)
  /-- MCST (R276). Multicasts a token to a group chosen at firing time. -/
  | mcst (f : OpFields)
  /-- CMPR (R277). Reads 64 bytes of a completion record. -/
  | cmpr (f : OpFields)
  /-- LNCH_OPERATOR (R279). Operator form: queues a child launch record. -/
  | lnchOperator (f : OpFields)
  /-- TKRP (R348). Waits for a remote atomic's Bench entry, sends its result and frees the entry. -/
  | tkrp (f : OpFields)
  /-- TKCL (R348). Cancels the Bench entries for one block of a proxy object and raises object access. -/
  | tkcl (f : OpFields)
  /-- TKQ (R348). Counts the context's Bench entries by state. -/
  | tkq (f : OpFields)
  /-- CHSV (R312). Snapshots the context's Chest entries into an object. -/
  | chsv (f : OpFields)
  /-- CHRS (R312). Counts the context's Chest entries by state. -/
  | chrs (f : OpFields)
  /-- CHRP (R312). Forwards its token once every earlier Chest entry has retired. -/
  | chrp (f : OpFields)
  /-- VADD (R145). Elementwise addition. -/
  | vadd (f : OpFields)
  /-- VSUB (R145). Elementwise subtraction. -/
  | vsub (f : OpFields)
  /-- VMUL (R145). Elementwise multiplication. -/
  | vmul (f : OpFields)
  /-- VFMA (R145). Fused multiply-add with lit1, rounded once. -/
  | vfma (f : OpFields)
  /-- VFMS (R145). Fused multiply-subtract of lit1, rounded once. -/
  | vfms (f : OpFields)
  /-- VDIV (R145). Correctly rounded division. -/
  | vdiv (f : OpFields)
  /-- VSQRT (R145). Correctly rounded square root. -/
  | vsqrt (f : OpFields)
  /-- VRCP (R145). Reciprocal at a 32-bit significand. -/
  | vrcp (f : OpFields)
  /-- VRSQ (R145). Reciprocal square root at a 32-bit significand. -/
  | vrsq (f : OpFields)
  /-- VEXP (R145). e^x at a 32-bit significand. -/
  | vexp (f : OpFields)
  /-- VEXP2 (R145). 2^x at a 32-bit significand. -/
  | vexp2 (f : OpFields)
  /-- VLOG2 (R145). log2 x at a 32-bit significand. -/
  | vlog2 (f : OpFields)
  /-- VTANH (R145). tanh x at a 32-bit significand. -/
  | vtanh (f : OpFields)
  /-- VSIGM (R145). Logistic sigmoid at a 32-bit significand. -/
  | vsigm (f : OpFields)
  /-- VMAX (R145). Elementwise maximum. -/
  | vmax (f : OpFields)
  /-- VMIN (R145). Elementwise minimum. -/
  | vmin (f : OpFields)
  /-- VABS (R145). Absolute value, in kept form. -/
  | vabs (f : OpFields)
  /-- VNEG (R145). Negation, in kept form. -/
  | vneg (f : OpFields)
  /-- VCPS (R145). Copies the sign of y onto |x|. -/
  | vcps (f : OpFields)
  /-- VSCLX (R147). Multiplies by a power of two. -/
  | vsclx (f : OpFields)
  /-- VCVT (R148). Rounds each element to the target format that FMT selects. -/
  | vcvt (f : OpFields)
  /-- VCMP_EQ (R149). Compares for equality and sends a mask. -/
  | vcmpEq (f : OpFields)
  /-- VCMP_NE (R149). Compares for inequality and sends a mask. -/
  | vcmpNe (f : OpFields)
  /-- VCMP_LT (R149). Compares for less than and sends a mask. -/
  | vcmpLt (f : OpFields)
  /-- VCMP_LE (R149). Compares for less than or equal and sends a mask. -/
  | vcmpLe (f : OpFields)
  /-- VCMP_UN (R149). Tests for unordered operands and sends a mask. -/
  | vcmpUn (f : OpFields)
  /-- VSELM (R150). Replaces masked-off elements with lit1. -/
  | vselm (f : OpFields)
  /-- VIADD (R152). Integer addition. -/
  | viadd (f : OpFields)
  /-- VISUB (R152). Integer subtraction. -/
  | visub (f : OpFields)
  /-- VIMUL (R152). Integer multiplication, low 64 bits. -/
  | vimul (f : OpFields)
  /-- VIAND (R152). Integer AND. -/
  | viand (f : OpFields)
  /-- VIOR (R152). Integer OR. -/
  | vior (f : OpFields)
  /-- VIXOR (R152). Integer XOR. -/
  | vixor (f : OpFields)
  /-- VISHL (R152). Integer shift left. -/
  | vishl (f : OpFields)
  /-- VISHR (R152). Integer arithmetic shift right. -/
  | vishr (f : OpFields)
  /-- VIMIN (R152). Signed integer minimum. -/
  | vimin (f : OpFields)
  /-- VIMAX (R152). Signed integer maximum. -/
  | vimax (f : OpFields)
  /-- RSUMR (R153). Sums each row. -/
  | rsumr (f : OpFields)
  /-- RMAXR (R153). Maximum of each row. -/
  | rmaxr (f : OpFields)
  /-- RMINR (R153). Minimum of each row. -/
  | rminr (f : OpFields)
  /-- RSUMC (R153). Sums each column. -/
  | rsumc (f : OpFields)
  /-- RMAXC (R153). Maximum of each column. -/
  | rmaxc (f : OpFields)
  /-- TOPK (R156). Selects the K highest-ranked values and their indices. -/
  | topk (f : OpFields)
  /-- VEXPD (R154). Exponentiates differences from a row value and sums each row. -/
  | vexpd (f : OpFields)
  /-- VRDIV (R155). Divides each row by its own divisor. -/
  | vrdiv (f : OpFields)
  /-- TTRN (R157). Transposes a tile. -/
  | ttrn (f : OpFields)
  /-- TBRD (R157). Broadcasts a row, a column or a scalar tile. -/
  | tbrd (f : OpFields)
  /-- TSLC (R157). Slices a sub-tile. -/
  | tslc (f : OpFields)
  /-- TCAT (R157). Concatenates two tiles along rows or columns. -/
  | tcat (f : OpFields)
  /-- TFILL (R157). Fills a new tile with a scalar. -/
  | tfill (f : OpFields)
  /-- TIOTA (R157). Fills a new tile with consecutive integers. -/
  | tiota (f : OpFields)
  /-- TPERM (R157). Permutes rows or columns by an index tile. -/
  | tperm (f : OpFields)
  /-- HAD (R158). Applies the 32-point Hadamard transform along rows. -/
  | had (f : OpFields)
  /-- STEER (R184). Routes a token to d0 or d1 by its predicate. -/
  | steer (f : OpFields)
  /-- SELECT (R184). Forwards a or b by its predicate and consumes the other. -/
  | select (f : OpFields)
  /-- MERGE (R183). Forwards each token of either port alone. -/
  | merge (f : OpFields)
  /-- GATE (R184). Forwards a token when its predicate is 1, and consumes it otherwise. -/
  | gate (f : OpFields)
  /-- SYNC (R184). Joins two tokens and forwards each under a's colour and tag. -/
  | sync (f : OpFields)
  /-- COLA (R186). Allocates a colour explicitly. -/
  | cola (f : OpFields)
  /-- COLF (R186). Frees a named colour explicitly. -/
  | colf (f : OpFields)
  /-- ITNX (R187). Advances a tag field and sends to the next iteration or to the loop exit. -/
  | itnx (f : OpFields)
  /-- ITEX (R187). Exits a loop: clears tag fields, sets a colour and may free the incoming one. -/
  | itex (f : OpFields)
  /-- FORK (R188). Replicates a token across a tag field, one copy per ck. -/
  | fork (f : OpFields)
  /-- BARA (R189). Arrives at a barrier object. -/
  | bara (f : OpFields)
  /-- BARW (R190). Waits until a barrier generation has passed. -/
  | barw (f : OpFields)
  /-- PAND (R185). Sends p AND truth(x). -/
  | pand (f : OpFields)
  /-- POR (R185). Sends p OR truth(x). -/
  | por (f : OpFields)
  /-- PNOT (R185). Sends NOT p. -/
  | pnot (f : OpFields)
  /-- PCNST (R185). Turns a truth value into a predicate. -/
  | pcnst (f : OpFields)
  /-- SINK (R184). Consumes a token. -/
  | sink (f : OpFields)
  /-- PASS (R184). Forwards a token with its tag action. -/
  | pass (f : OpFields)
  /-- PSN (R313). Forwards a token as poison. -/
  | psn (f : OpFields)
  /-- PTST (R313). Sends a predicate telling whether a token is poison, and forwards the token. -/
  | ptst (f : OpFields)
  /-- SEAL (R314). Raises operator seal in its own section. -/
  | seal (f : OpFields)
  /-- TRAPO (R315). Forwards a token and posts an operator-trap notice to the control core. -/
  | trapo (f : OpFields)
  /-- DBRK (R316). Sets or clears an address comparator of the control core. -/
  | dbrk (f : OpFields)
  /-- DSTP (R317). Forwards a token, then stops its engine under the debugger. -/
  | dstp (f : OpFields)
  /-- DHLD (R317). Forwards a token, then raises the halt line under the debugger. -/
  | dhld (f : OpFields)
  /-- EOS_FIRING (R26). A Drawer whose data ports all hold EOS fires: it forwards EOS and performs no effect. -/
  | eosFiring
  /-- FIRING_RESULT_SEND (R19). When a firing's occupancy or access ends, it sends its results through its destinations. -/
  | firingResultSend (fid : Nat)
  /-- TOKEN_ARRIVAL (R30). A token reaching a core is placed in a Drawer or the receive queue, or is discarded. -/
  | tokenArrival (n : Nat)
  /-- ERROR_EOS_ARRIVAL (R27). Error-EOS discards the Drawers of its key and is passed on at once. -/
  | errorEosArrival (n : Nat)
  /-- INGRESS_HELD_TOKEN_PLACE (R179). A token held at the ingress, for lack of overflow drawers or queue room, is placed once room frees. -/
  | ingressHeldTokenPlace (n : Nat)
  /-- TILE_PACKET_PLACE (R14). A tile packet waiting at the ingress is placed when the allocator serves its request. -/
  | tilePacketPlace (core : Nat)
  /-- ALLOCATION_GRANT (R12). A waiting allocation request is met and its engine resumes issuing. -/
  | allocationGrant (core : Nat)
  /-- OVERFLOW_DRAWER_MOVE (R178). When an engine Drawer frees, the oldest unmatched overflow Drawer moves into it. -/
  | overflowDrawerMove (core : Nat) (eng : Eng)
  /-- COLOUR_RETURN (R167). A freed colour returns to the pool in the ck after the last result and goes to the oldest waiter. -/
  | colourReturn (n : Nat)
  /-- ENERGY_REFILL (R177). Every 1,024 ck the budget of each resident context is refilled and its shortfall paid. -/
  | energyRefill
  /-- DATAFLOW_STALL_DETECT (R180). The deadlock count reaches k.dlwin and sets PEND[32] on the partition's control cores. -/
  | dataflowStallDetect (ctx : Nat) (die : Nat)
  /-- MEMORY_RESPONSE_ARRIVAL (R287). Read data or an acknowledgement answers a Chest entry, which retires once its results are sent. -/
  | memoryResponseArrival (core : Nat) (ctx : Nat) (order : Nat)
  /-- RETIRE_NOTICE (R288). A retire notice releases the recent-tag table entry of an I2 operation at its bank. -/
  | retireNotice (n : Nat)
  /-- BARRIER_ARRIVAL_PERFORM (R172). A barrier arrival updates ARR and GEN at the bank. -/
  | barrierArrivalPerform (core : Nat) (ctx : Nat) (order : Nat)
  /-- BARRIER_WAIT_ANSWER (R190). The bank answers a waiting BARW once GEN differs from g. -/
  | barrierWaitAnswer (core : Nat) (ctx : Nat) (order : Nat)
  /-- COUNTER_ADD_PERFORM (R254). A counter add is performed at the counter's bank once its release condition holds. -/
  | counterAddPerform (core : Nat) (ctx : Nat) (order : Nat)
  /-- COUNTER_WAIT_SATISFIED (R272). A waiting CNWT sends once every named counter reaches the target. -/
  | counterWaitSatisfied (core : Nat) (ctx : Nat) (order : Nat)
  /-- RING_OP_PERFORM (R211). A waiting push or pop is performed at the bank once there is room or data. -/
  | ringOpPerform (core : Nat) (ctx : Nat) (order : Nat)
  /-- NEAR_MEMORY_INVOCATION (R266). A near-memory unit performs a queued invocation on 512 aligned bytes and returns its result. -/
  | nearMemoryInvocation (stack : Nat)
  /-- HUB_COMMAND_PERFORM (R238). A queued ORSET, ORINV, ORMOV, SHOP or PUBL is performed at the object's hub. -/
  | hubCommandPerform (n : Nat)
  /-- RELOCATION_UNIT_COPY (R208). The hub streamer copies the next unit of a relocating object. -/
  | relocationUnitCopy (handle : Nat)
  /-- RELOCATION_FLIP (R208). After the last unit, one record update sets the new base and generation. -/
  | relocationFlip (handle : Nat)
  /-- GENERATION_DRAIN_POST (R208). When an old generation's in-flight count reaches 0, the relocation entry is removed and the command counter is posted. -/
  | generationDrainPost (n : Nat)
  /-- HALT_LINE_RISE (R283). A recoverable fault, a pre-emption or DHLD raises the context's halt line. -/
  | haltLineRise (ctx : Nat)
  /-- PRE_EMPTION_REQUEST (R283). The firmware scheduler pre-empts a context. -/
  | preEmptionRequest (ctx : Nat)
  /-- ENGINE_STOP (R284). An engine reaches its skid boundary and stops the context's work. -/
  | engineStop (core : Nat) (ctx : Nat) (e : Nat)
  /-- CONTEXT_HALTED (R285). The last core freezes, the context is halted and management is notified. -/
  | contextHalted (ctx : Nat)
  /-- FAULT_SERVICE_RESUME (R290). Management services the fault and the context resumes without a save, reissuing faulted entries. -/
  | faultServiceResume (ctx : Nat)
  /-- FAULT_REFUSAL (R290). Management refuses service and the fault becomes a pending seal with object access. -/
  | faultRefusal (ctx : Nat)
  /-- CONTEXT_SAVE (R292). A halted context saves its sets, Chest, Drawers, SRAM, header and granules on each core. -/
  | contextSave (core : Nat) (ctx : Nat)
  /-- CONTEXT_RESTORE (R296). A saved context is reloaded, pending seals are performed and its Chest entries are reissued. -/
  | contextRestore (core : Nat) (ctx : Nat)
  /-- HALT_LINE_FALL (R296). Once every core has reissued, the halt line falls and the engines and control cores resume. -/
  | haltLineFall (ctx : Nat)
  /-- REFUSED_TOKEN_RESEND (R293). Tokens refused for a saved context are resent every 4,096 ck. -/
  | refusedTokenResend (n : Nat)
  /-- SECTION_SEAL (R297). An unrecoverable fault seals its section, discards its Drawers and sends error-EOS on its boundary edges. -/
  | sectionSeal (n : Nat)
  /-- SECTION_FINISH (R161). A section is finished when every core is spent and every issued firing has sent. -/
  | sectionFinish (ctx : Nat) (sect : Nat)
  /-- CONTEXT_LOST (R302). A lost context is sealed and its completion record is written with LOST. -/
  | contextLost (ctx : Nat)
  /-- CONTEXT_CREATE (R255). The firmware scheduler checks a launch record and creates the context with its objects and control images. -/
  | contextCreate (n : Nat) (id : Nat)
  /-- NODE_START (R260). The launch sequencer starts a section or a copy whose predecessor count is 0. -/
  | nodeStart (ctx : Nat) (node : Nat)
  /-- NODE_END (R260). A node ends and its successors' counts fall, or the successors are abandoned. -/
  | nodeEnd (ctx : Nat) (node : Nat)
  /-- LAUNCH_COMPLETE (R267). When every node has ended, the completion record is written, CSIG is posted and the context ends. -/
  | launchComplete (ctx : Nat)
  /-- COPY_ENTRY_RUN (R262). An eligible and released copy entry starts moving its rows. -/
  | copyEntryRun (ctx : Nat) (k : Nat)
  /-- COPY_COUNTER_POST (R262). When every write of a copy is acknowledged, its counter add is issued. -/
  | copyCounterPost (ctx : Nat) (k : Nat)
  /-- REMOTE_REQUEST_AT_OWNER (R340). The owner's home hub performs, tickets or rejects a remote request. -/
  | remoteRequestAtOwner (r : RemoteReq)
  /-- TICKET_RECEIPT (R344). A TICKET moves a Bench entry to ticketed, and a store's completion is sent. -/
  | ticketReceipt (core : Nat) (n : Nat) (ticket : Nat) (block : Nat) (gen : Nat)
  /-- REPLAY_NOTICE (R344). REPLAY marks the ticket's entries notified, and they are resent in ORDER. -/
  | replayNotice (ticket : Nat)
  /-- REFUSE_NOTICE (R344). REFUSE frees the block's Bench entries with object access faults. -/
  | refuseNotice (ticket : Nat)
  /-- REJECT_ANSWER (R344). REJECT frees the answered Bench entry with an object access fault. -/
  | rejectAnswer (core : Nat) (n : Nat)
  /-- CANCEL_AT_OWNER (R348). A CANCEL from TKCL closes the owner's ticket entry. -/
  | cancelAtOwner (dev : Nat) (core : Nat) (ctx : Nat) (handle : Nat) (block : Nat)
  /-- FABRIC_PACKET_FORWARD (R327). A device forwards a fabric packet on the port that its route entry chooses. -/
  | fabricPacketForward (n : Nat)
  /-- UNDELIVERABLE_NOTICE (R327). An undeliverable notice makes the source device lose the packet's context. -/
  | undeliverableNotice (ctx : Nat)
  /-- FABRIC_ACK (R330). An end-to-end acknowledgement lowers the unacknowledged count and may bring a new route into use. -/
  | fabricAck (dev : Nat) (count : Nat)
  /-- PACKET_AGE_PROMOTION (R214). A queued packet whose age reaches the threshold moves to the head of its VC. -/
  | packetAgePromotion (n : Nat)
  /-- FLIT_GROUP_RECEIVE (R332). A flit group's tag is verified before its bytes are delivered. -/
  | flitGroupReceive (port : Nat) (flits : List (BitVec 512))
  /-- ACK (R333). A cumulative ACK releases acknowledged flits from the replay buffer. -/
  | ack (port : Nat) (seq : Nat)
  /-- NACK (R333). The sender resends from the named flit, unchanged. -/
  | nack (port : Nat) (seq : Nat)
  /-- IDLE (R333). An idle control flit. -/
  | idle (port : Nat)
  /-- KEYSW (R336). Groups sent after KEYSW use the next key generation. -/
  | keysw (port : Nat) (gen : Nat)
  /-- RETRAIN (R333). The physical layer retrains and every unacknowledged flit is resent. -/
  | retrain (port : Nat) (ok : Bool)
  /-- KEY_GENERATION_ERASE (R336). The previous key generation is erased after 1,024 data flits under the new one. -/
  | keyGenerationErase (port : Nat) (tx : Bool)
  /-- GET_VERSION (R334). SPDM version negotiation message. -/
  | getVersion (port : Nat) (m : SpdmMsg)
  /-- GET_CAPABILITIES (R334). SPDM capabilities message. -/
  | getCapabilities (port : Nat) (m : SpdmMsg)
  /-- NEGOTIATE_ALGORITHMS (R334). SPDM algorithm negotiation, with SLH-DSA as an extended algorithm. -/
  | negotiateAlgorithms (port : Nat) (m : SpdmMsg)
  /-- GET_DIGESTS (R334). SPDM certificate digests message. -/
  | getDigests (port : Nat) (m : SpdmMsg)
  /-- GET_CERTIFICATE (R334). SPDM certificate retrieval message. -/
  | getCertificate (port : Nat) (m : SpdmMsg)
  /-- CHALLENGE (R334). SPDM authentication challenge. -/
  | challenge (port : Nat) (m : SpdmMsg)
  /-- GET_MEASUREMENTS (R334). SPDM measurement report message. -/
  | getMeasurements (port : Nat) (m : SpdmMsg)
  /-- KEY_EXCHANGE (R334). SPDM ECDHE P-384 key exchange message. -/
  | keyExchange (port : Nat) (m : SpdmMsg)
  /-- FINISH (R334). SPDM session finish message. -/
  | finish (port : Nat) (m : SpdmMsg)
  /-- KEY_UPDATE (R336). SPDM key update that starts a key rotation; it is refused while a previous generation is held. -/
  | keyUpdate (port : Nat) (m : SpdmMsg)
  /-- END_SESSION (R334). SPDM end-of-session message. -/
  | endSession (port : Nat) (m : SpdmMsg)
  /-- PSK_EXCHANGE (R334). SPDM pre-shared-key exchange, always refused. -/
  | pskExchange (port : Nat) (m : SpdmMsg)
  /-- DOORBELL (R357). A host doorbell write updates DBELL if its value is later, or sets PEND for an unmapped queue. -/
  | doorbell (q : Nat) (v : BitVec 64)
  /-- QUEUE_ENTRY_ACCEPT (R358). A mapped slot accepts the next queue entry, or rejects it into LREJ. -/
  | queueEntryAccept (q : Nat)
  /-- BAR0_OTHER_WRITE (R354). Host writes to BAR0 outside the doorbells are discarded. -/
  | bar0OtherWrite (off : Nat) (v : BitVec 64)
  /-- BAR2_ACCESS (R354). Host access to device memory through the BAR2 window. -/
  | bar2Access (off : Nat) (data : List (BitVec 8))
  /-- ADMIT_STREAM (R361). Management request OP 1: allow a reserved stream. -/
  | admitStream
  /-- WITHDRAW_STREAM (R361). Management request OP 2: withdraw a stream. -/
  | withdrawStream
  /-- MAKE_PAGE_EXECUTABLE (R60). Management request OP 3: scan a private SRAM page and make it executable. -/
  | makePageExecutable
  /-- REMOVE_EXECUTE (R361). Management request OP 4: remove execute permission from a page. -/
  | removeExecute
  /-- ATTACH_DOLZ (R361). Management request OP 5: attach the debugger to a context. -/
  | attachDolz
  /-- DETACH_DOLZ (R361). Management request OP 6: detach the debugger. -/
  | detachDolz
  /-- WRITE_ROUTE_ENTRIES (R326). Management request OP 7: write route-table entries. -/
  | writeRouteEntries
  /-- PORT_BRING_UP (R335). Port command 0: authenticate with SPDM and lock the port. -/
  | portBringUp
  /-- PORT_START (R335). Port command 1: move a locked port to RUN. -/
  | portStart
  /-- PORT_STOP (R335). Port command 2: move the port to UNLOCKED and erase its keys. -/
  | portStop
  /-- MOVE_BAR2_WINDOW (R361). Management request OP 9: move the BAR2 window. -/
  | moveBar2Window
  /-- CREATE_USER_QUEUE (R356). Management request OP 10 with a nonzero SIZE: create a user queue. -/
  | createUserQueue
  /-- REMOVE_USER_QUEUE (R361). Management request OP 10 with SIZE 0: remove a user queue. -/
  | removeUserQueue
  /-- DEVICE_BOOT (R362). On reset, the boot ROM verifies and measures an image and starts the management OS. -/
  | deviceBoot
  /-- RECOVERY_IMAGE_ACCEPT (R362). The recovery function accepts a new image into a flash slot. -/
  | recoveryImageAccept (slot : Nat) (image : FlashImage)
  /-- ROLLBACK_ADVANCE (R362). The rollback counter advances after the management OS reports a completed start. -/
  | rollbackAdvance
  /-- DEBUG_CONTINUE (R304). The debugger continues a stopped engine; the held firing issues first. -/
  | debugContinue (core : Nat) (e : Nat)
  /-- SINGLE_STEP (R306). The debugger issues one firing or executes one instruction. -/
  | singleStep (core : Nat) (e : Nat)
  /-- INSTRUCTION_FETCH_FAULT (R61). A control-core fetch from an address outside an executable page, or of a word with an uncorrectable ECC error, traps with cause 2 or cause 1 and executes nothing of the word. -/
  | instructionFetchFault (core : Nat)
  /-- QUEUE_SLOT_MAP (R358). The firmware scheduler maps a user queue onto one of the 64 hardware queue slots, or saves and unmaps its control block, which changes SLOT and serves a pending doorbell. -/
  | queueSlotMap (q : Nat) (slot : Nat)
  /-- OWNER_REFUSES_SERVICE (R341). The owner's management refuses to service a ticketed block, and the home hub sends REFUSE(id) and closes the ticket entry. -/
  | ownerRefusesService (ticket : Nat)
  /-- MANAGEMENT_SETS_WINDOWS (R159). Management sets k.agewin or k.dlwin of a resident context to a value other than its default. -/
  | managementSetsWindows (ctx : Nat) (agewin : Nat) (dlwin : Nat)
  /-- PROMOTION_THRESHOLD_SET (R214). Management sets a link's packet-age promotion threshold to a value from 64 to 65,535 ck. -/
  | promotionThresholdSet (link : Nat) (v : Nat)
  /-- IMAGE_LOAD (R351). When a graph image is loaded, management places its objects' memory and writes their data, installing the objects of a graph without a section or launch with CTX 255. -/
  | imageLoad (image : GraphImage)
deriving DecidableEq, Repr

end Sys2Proof
end

