-- ==== Sys2Proof/WellFormed.lean ====
section
/-! DEFINITION. Which instructions are well formed: the checks of the executable-page scanner (R54 to R60) on control
words, and GLOAD's checks on an operator word alone (R69, reasons 3 to 5). An event has no word and is well formed. -/

namespace Sys2Proof

/-- The assigned k-register numbers (R89). -/
def kAssigned (k : BitVec 12) : Bool :=
  [0x000, 0x001, 0x002, 0x003, 0x004, 0x010, 0x011, 0x020, 0x021, 0x030, 0x031, 0x040, 0x041, 0x042, 0x043, 0x050,
    0x051, 0x052, 0x060, 0x061].contains k.toNat

/-- The k-registers that the map marks read-only (R89). -/
def kReadOnly (k : BitVec 12) : Bool :=
  [0x010, 0x011, 0x020, 0x021, 0x040, 0x041, 0x042, 0x043, 0x060, 0x061].contains k.toNat

/-- How many registers a width names (R56). -/
def Width.size : Width → Nat
  | .w1 => 1
  | .w2 => 2
  | .w4 => 4
  | .w8 => 8

/-- A grouped operand's first register is divisible by the group size (R56). -/
def Width.fits (w : Width) (r : Reg) : Bool := decide (r.toNat % w.size = 0)

/-- An immediate shift amount lies in 0 to 63 (R59). -/
def shiftOk (i : BitVec 16) : Bool := decide (i.toNat < 64)

/-- Port a is declared (R21). -/
def OpFields.declA (f : OpFields) : Bool := f.srcA == 0 || f.srcB == 0

/-- Port b is declared (R21). -/
def OpFields.declB (f : OpFields) : Bool := f.srcA == 1 || f.srcB == 1

/-- GLOAD's checks of an operator word by itself (R69, reasons 3, 4 and 5): `m` says that the opcode may stand in M's
table, where source 4 is legal; `p` that the opcode takes port p. -/
def OpFields.ok (m p : Bool) (f : OpFields) : Bool :=
  f.srcA != 7 && f.srcB != 7 && (m || (f.srcA != 4 && f.srcB != 4)) && decide (f.tag.toNat < 10)
    && (f.declA || f.declB || p)

/-- Whether an instruction's word is legal. -/
def Instr.wf : Instr → Bool
  | .add .. => true
  | .sub .. => true
  | .mul .. => true
  | .mulh .. => true
  | .div .. => true
  | .rem .. => true
  | .min .. => true
  | .max .. => true
  | .and .. => true
  | .or .. => true
  | .xor .. => true
  | .shl .. => true
  | .shr .. => true
  | .sra .. => true
  | .slt .. => true
  | .sltu .. => true
  | .clz .. => true
  | .popc .. => true
  | .mov d a w => w.fits d && w.fits a
  | .addImm .. => true
  | .subImm .. => true
  | .mulImm .. => true
  | .mulhImm .. => true
  | .divImm _ _ i => i != 0
  | .remImm _ _ i => i != 0
  | .minImm .. => true
  | .maxImm .. => true
  | .andImm .. => true
  | .orImm .. => true
  | .xorImm .. => true
  | .shlImm _ _ i => shiftOk i
  | .shrImm _ _ i => shiftOk i
  | .sraImm _ _ i => shiftOk i
  | .sltImm .. => true
  | .sltuImm .. => true
  | .lui .. => true
  | .adpc .. => true
  | .jal .. => true
  | .jalr _ _ i => i.extractLsb' 0 2 == 0
  | .beq .. => true
  | .bne .. => true
  | .blt .. => true
  | .bge .. => true
  | .bltu .. => true
  | .bgeu .. => true
  | .loop _ o => decide (1 ≤ o.toInt)
  | .loopx .. => true
  | .ldb .. => true
  | .ldbu .. => true
  | .ldh .. => true
  | .ldhu .. => true
  | .ldw .. => true
  | .ldd .. => true
  | .ldv d _ w _ => w.fits d
  | .stb .. => true
  | .sth .. => true
  | .stw .. => true
  | .std .. => true
  | .stv d _ w _ => w.fits d
  | .amadd .. => true
  | .amswp .. => true
  | .amcas .. => true
  | .krd _ k => kAssigned k
  | .kwr _ k => kAssigned k && !(kReadOnly k)
  | .kset _ k => kAssigned k && !(kReadOnly k)
  | .kclr _ k => kAssigned k && !(kReadOnly k)
  | .fenceEngine .. => true
  | .fenceCore .. => true
  | .fenceQuad .. => true
  | .fenceCluster .. => true
  | .fenceDie .. => true
  | .fenceDevice .. => true
  | .fenceSystem .. => true
  | .gload .. => true
  | .dset .. => true
  | .inj b => Width.w4.fits b
  | .injp _ b => Width.w2.fits b
  | .trecv d => Width.w4.fits d
  | .ecall .. => true
  | .ebreak .. => true
  | .eret .. => true
  | .wfe .. => true
  | .sev .. => true
  | .orset .. => true
  | .orinv .. => true
  | .ormov .. => true
  | .orres .. => true
  | .lnch .. => true
  | .mma f => f.ok true false
  | .mmaz f => f.ok true false
  | .mmat f => f.ok true false
  | .mmatz f => f.ok true false
  | .cmma f => f.ok true false
  | .cmmaz f => f.ok true false
  | .qmma f => f.ok true false
  | .qmmaz f => f.ok true false
  | .accld f => f.ok true false
  | .accst f => f.ok true false
  | .accz f => f.ok true false
  | .accscl f => f.ok true false
  | .mcont f => f.ok true false
  | .tld f => f.ok false false
  | .tst f => f.ok false false
  | .sld f => f.ok false false
  | .sst f => f.ok false false
  | .tldg f => f.ok false false
  | .tsts f => f.ok false false
  | .atad f => f.ok false false
  | .atmn f => f.ok false false
  | .atmx f => f.ok false false
  | .atxc f => f.ok false false
  | .atcs f => f.ok false false
  | .rpush f => f.ok false false
  | .rpop f => f.ok false false
  | .fncEngine f => f.ok false false
  | .fncCore f => f.ok false false
  | .fncQuad f => f.ok false false
  | .fncCluster f => f.ok false false
  | .fncDie f => f.ok false false
  | .fncDevice f => f.ok false false
  | .fncSystem f => f.ok false false
  | .stadv f => f.ok false false
  | .cnadd f => f.ok false false
  | .cnwt f => f.ok false false
  | .cnrd f => f.ok false false
  | .shop f => f.ok false false
  | .publ f => f.ok false false
  | .nmiv f => f.ok false false
  | .mcst f => f.ok false false
  | .cmpr f => f.ok false false
  | .lnchOperator f => f.ok false false
  | .tkrp f => f.ok false false
  | .tkcl f => f.ok false false
  | .tkq f => f.ok false false
  | .chsv f => f.ok false false
  | .chrs f => f.ok false false
  | .chrp f => f.ok false false
  | .vadd f => f.ok false false
  | .vsub f => f.ok false false
  | .vmul f => f.ok false false
  | .vfma f => f.ok false false
  | .vfms f => f.ok false false
  | .vdiv f => f.ok false false
  | .vsqrt f => f.ok false false
  | .vrcp f => f.ok false false
  | .vrsq f => f.ok false false
  | .vexp f => f.ok false false
  | .vexp2 f => f.ok false false
  | .vlog2 f => f.ok false false
  | .vtanh f => f.ok false false
  | .vsigm f => f.ok false false
  | .vmax f => f.ok false false
  | .vmin f => f.ok false false
  | .vabs f => f.ok false false
  | .vneg f => f.ok false false
  | .vcps f => f.ok false false
  | .vsclx f => f.ok false false
  | .vcvt f => f.ok false false
  | .vcmpEq f => f.ok false false
  | .vcmpNe f => f.ok false false
  | .vcmpLt f => f.ok false false
  | .vcmpLe f => f.ok false false
  | .vcmpUn f => f.ok false false
  | .vselm f => f.ok false false
  | .viadd f => f.ok false false
  | .visub f => f.ok false false
  | .vimul f => f.ok false false
  | .viand f => f.ok false false
  | .vior f => f.ok false false
  | .vixor f => f.ok false false
  | .vishl f => f.ok false false
  | .vishr f => f.ok false false
  | .vimin f => f.ok false false
  | .vimax f => f.ok false false
  | .rsumr f => f.ok false false
  | .rmaxr f => f.ok false false
  | .rminr f => f.ok false false
  | .rsumc f => f.ok false false
  | .rmaxc f => f.ok false false
  | .topk f => f.ok false false
  | .vexpd f => f.ok false false
  | .vrdiv f => f.ok false false
  | .ttrn f => f.ok false false
  | .tbrd f => f.ok false false
  | .tslc f => f.ok false false
  | .tcat f => f.ok false false
  | .tfill f => f.ok false false
  | .tiota f => f.ok false false
  | .tperm f => f.ok false false
  | .had f => f.ok false false
  | .steer f => f.ok true true
  | .select f => f.ok true true
  | .merge f => f.ok true false
  | .gate f => f.ok true true
  | .sync f => f.ok true false
  | .cola f => f.ok true false
  | .colf f => f.ok true false
  | .itnx f => f.ok true false
  | .itex f => f.ok true false
  | .fork f => f.ok true false
  | .bara f => f.ok true false
  | .barw f => f.ok true false
  | .pand f => f.ok true true
  | .por f => f.ok true true
  | .pnot f => f.ok true true
  | .pcnst f => f.ok true false
  | .sink f => f.ok true false
  | .pass f => f.ok true false
  | .psn f => f.ok true false
  | .ptst f => f.ok true false
  | .seal f => f.ok true false
  | .trapo f => f.ok true false
  | .dbrk f => f.ok true false
  | .dstp f => f.ok true false
  | .dhld f => f.ok true false
  | .fenceComplete .. => true
  | .gloadSwitchWrite .. => true
  | .injAccept .. => true
  | .trecvReturn .. => true
  | .wfeWake .. => true
  | .lnchAccept .. => true
  | .asyncTrapEntry .. => true
  | .eosFiring .. => true
  | .firingResultSend .. => true
  | .tokenArrival .. => true
  | .errorEosArrival .. => true
  | .ingressHeldTokenPlace .. => true
  | .tilePacketPlace .. => true
  | .allocationGrant .. => true
  | .overflowDrawerMove .. => true
  | .colourReturn .. => true
  | .energyRefill .. => true
  | .dataflowStallDetect .. => true
  | .memoryResponseArrival .. => true
  | .retireNotice .. => true
  | .barrierArrivalPerform .. => true
  | .barrierWaitAnswer .. => true
  | .counterAddPerform .. => true
  | .counterWaitSatisfied .. => true
  | .ringOpPerform .. => true
  | .nearMemoryInvocation .. => true
  | .hubCommandPerform .. => true
  | .relocationUnitCopy .. => true
  | .relocationFlip .. => true
  | .generationDrainPost .. => true
  | .haltLineRise .. => true
  | .preEmptionRequest .. => true
  | .engineStop .. => true
  | .contextHalted .. => true
  | .faultServiceResume .. => true
  | .faultRefusal .. => true
  | .contextSave .. => true
  | .contextRestore .. => true
  | .haltLineFall .. => true
  | .refusedTokenResend .. => true
  | .sectionSeal .. => true
  | .sectionFinish .. => true
  | .contextLost .. => true
  | .contextCreate .. => true
  | .nodeStart .. => true
  | .nodeEnd .. => true
  | .launchComplete .. => true
  | .copyEntryRun .. => true
  | .copyCounterPost .. => true
  | .remoteRequestAtOwner .. => true
  | .ticketReceipt .. => true
  | .replayNotice .. => true
  | .refuseNotice .. => true
  | .rejectAnswer .. => true
  | .cancelAtOwner .. => true
  | .fabricPacketForward .. => true
  | .undeliverableNotice .. => true
  | .fabricAck .. => true
  | .packetAgePromotion .. => true
  | .flitGroupReceive .. => true
  | .ack .. => true
  | .nack .. => true
  | .idle .. => true
  | .keysw .. => true
  | .retrain .. => true
  | .keyGenerationErase .. => true
  | .getVersion .. => true
  | .getCapabilities .. => true
  | .negotiateAlgorithms .. => true
  | .getDigests .. => true
  | .getCertificate .. => true
  | .challenge .. => true
  | .getMeasurements .. => true
  | .keyExchange .. => true
  | .finish .. => true
  | .keyUpdate .. => true
  | .endSession .. => true
  | .pskExchange .. => true
  | .doorbell .. => true
  | .queueEntryAccept .. => true
  | .bar0OtherWrite .. => true
  | .bar2Access .. => true
  | .admitStream .. => true
  | .withdrawStream .. => true
  | .makePageExecutable .. => true
  | .removeExecute .. => true
  | .attachDolz .. => true
  | .detachDolz .. => true
  | .writeRouteEntries .. => true
  | .portBringUp .. => true
  | .portStart .. => true
  | .portStop .. => true
  | .moveBar2Window .. => true
  | .createUserQueue .. => true
  | .removeUserQueue .. => true
  | .deviceBoot .. => true
  | .recoveryImageAccept .. => true
  | .rollbackAdvance .. => true
  | .debugContinue .. => true
  | .singleStep .. => true
  | .instructionFetchFault .. => true
  | .queueSlotMap .. => true
  | .ownerRefusesService .. => true
  | .managementSetsWindows .. => true
  | .promotionThresholdSet .. => true
  | .imageLoad .. => true

end Sys2Proof
end

