-- ==== Sys2Proof/Decode.lean ====
section
/-! DEFINITION. Decoding and encoding of control words (R54 to R59) and operator words (R62, R64). Both kinds are 32 bits
and share one space of words; which kind a word is follows from where it lies (log 5). -/

namespace Sys2Proof

/-- The width of a W field (R56). -/
def Width.ofBits (w : BitVec 2) : Width :=
  match w.toNat with
  | 0 => .w1
  | 1 => .w2
  | 2 => .w4
  | _ => .w8

/-- The W field of a width (R56). -/
def Width.bits : Width → BitVec 2
  | .w1 => 0
  | .w2 => 1
  | .w4 => 2
  | .w8 => 3

/-- A C-R word of the ALU group (op 0x00, R58), by fn; the fields it does not use must be 0. -/
def decodeAluR (fn : Nat) (d a b : Reg) (w : BitVec 2) : Option Instr :=
  match fn with
  | 0 => if w = 0 then some (.add d a b) else none
  | 1 => if w = 0 then some (.sub d a b) else none
  | 2 => if w = 0 then some (.mul d a b) else none
  | 3 => if w = 0 then some (.mulh d a b) else none
  | 4 => if w = 0 then some (.div d a b) else none
  | 5 => if w = 0 then some (.rem d a b) else none
  | 6 => if w = 0 then some (.min d a b) else none
  | 7 => if w = 0 then some (.max d a b) else none
  | 8 => if w = 0 then some (.and d a b) else none
  | 9 => if w = 0 then some (.or d a b) else none
  | 10 => if w = 0 then some (.xor d a b) else none
  | 11 => if w = 0 then some (.shl d a b) else none
  | 12 => if w = 0 then some (.shr d a b) else none
  | 13 => if w = 0 then some (.sra d a b) else none
  | 14 => if w = 0 then some (.slt d a b) else none
  | 15 => if w = 0 then some (.sltu d a b) else none
  | 16 => if w = 0 ∧ b = 0 then some (.clz d a) else none
  | 17 => if w = 0 ∧ b = 0 then some (.popc d a) else none
  | 18 => if b = 0 then some (.mov d a (Width.ofBits w)) else none
  | _ => none

/-- The atomic group (op 0x01, R58). -/
def decodeAtomic (fn : Nat) (d a b : Reg) (w : BitVec 2) : Option Instr :=
  if w = 0 then
    match fn with
    | 0 => some (.amadd d a b)
    | 1 => some (.amswp d a b)
    | 2 => some (.amcas d a b)
    | _ => none
  else none

/-- The k-register group (op 0x30, R58), by fn[3:0]; the register field a form does not use must be 0. -/
def decodeK (fn : Nat) (d a : Reg) (k : BitVec 12) : Option Instr :=
  match fn with
  | 0 => if a = 0 then some (.krd d k) else none
  | 1 => if d = 0 then some (.kwr a k) else none
  | 2 => if d = 0 then some (.kset a k) else none
  | 3 => if d = 0 then some (.kclr a k) else none
  | _ => none

/-- FENCE (op 0x31, R58). -/
def decodeFence (fn : Nat) (d a b : Reg) (w : BitVec 2) : Option Instr :=
  if d = 0 ∧ a = 0 ∧ b = 0 ∧ w = 0 then
    match fn with
    | 0 => some .fenceEngine
    | 1 => some .fenceCore
    | 2 => some .fenceQuad
    | 3 => some .fenceCluster
    | 4 => some .fenceDie
    | 5 => some .fenceDevice
    | 6 => some .fenceSystem
    | _ => none
  else none

/-- The graph group (op 0x32, R58). -/
def decodeGraph (fn : Nat) (d a b : Reg) (w : BitVec 2) : Option Instr :=
  match fn with
  | 0 => if w = 0 ∧ b = 0 then some (.gload d a) else none
  | 1 => if w = 0 then some (.dset d a b) else none
  | 2 => if w = 2 ∧ d = 0 ∧ a = 0 then some (.inj b) else none
  | 3 => if w = 1 ∧ d = 0 then some (.injp a b) else none
  | 4 => if w = 2 ∧ a = 0 ∧ b = 0 then some (.trecv d) else none
  | _ => none

/-- The system group (op 0x33, R58). -/
def decodeSystem (fn : Nat) (d a b : Reg) (w : BitVec 2) : Option Instr :=
  if d = 0 ∧ a = 0 ∧ b = 0 ∧ w = 0 then
    match fn with
    | 0 => some .ecall
    | 1 => some .ebreak
    | 2 => some .eret
    | 3 => some .wfe
    | 4 => some .sev
    | _ => none
  else none

/-- The object-record group (op 0x34, R58). -/
def decodeObject (fn : Nat) (d a b : Reg) (w : BitVec 2) : Option Instr :=
  if d = 0 ∧ w = 0 then
    match fn with
    | 0 => some (.orset a b)
    | 1 => some (.orinv a b)
    | 2 => some (.ormov a b)
    | 3 => some (.orres a b)
    | _ => none
  else none

/-- A control word by its major opcode and fields (R54, R57). The value checks of R56 and R59 come after. -/
def controlOf (w : BitVec 32) : Option Instr :=
  let op := (w.extractLsb' 26 6).toNat
  let d : Reg := w.extractLsb' 21 5
  let a : Reg := w.extractLsb' 16 5
  let b : Reg := w.extractLsb' 11 5
  let wf := w.extractLsb' 9 2
  let fn := (w.extractLsb' 0 9).toNat
  let i16 := w.extractLsb' 0 16
  let mw := w.extractLsb' 14 2
  let i14 := w.extractLsb' 0 14
  match op with
  | 0x00 => decodeAluR fn d a b wf
  | 0x01 => decodeAtomic fn d a b wf
  | 0x02 => some (.addImm d a i16)
  | 0x03 => some (.subImm d a i16)
  | 0x04 => some (.mulImm d a i16)
  | 0x05 => some (.mulhImm d a i16)
  | 0x06 => some (.divImm d a i16)
  | 0x07 => some (.remImm d a i16)
  | 0x08 => some (.minImm d a i16)
  | 0x09 => some (.maxImm d a i16)
  | 0x0A => some (.andImm d a i16)
  | 0x0B => some (.orImm d a i16)
  | 0x0C => some (.xorImm d a i16)
  | 0x0D => some (.shlImm d a i16)
  | 0x0E => some (.shrImm d a i16)
  | 0x0F => some (.sraImm d a i16)
  | 0x10 => some (.sltImm d a i16)
  | 0x11 => some (.sltuImm d a i16)
  | 0x12 => if a = 0 then some (.lui d i16) else none
  | 0x13 => if a = 0 then some (.adpc d i16) else none
  | 0x14 => some (.jal d (w.extractLsb' 0 21))
  | 0x15 => some (.jalr d a i16)
  | 0x18 => some (.beq d a i16)
  | 0x19 => some (.bne d a i16)
  | 0x1A => some (.blt d a i16)
  | 0x1B => some (.bge d a i16)
  | 0x1C => some (.bltu d a i16)
  | 0x1D => some (.bgeu d a i16)
  | 0x1E => if a = 0 then some (.loop d i16) else none
  | 0x1F => if w.extractLsb' 0 26 = 0 then some .loopx else none
  | 0x20 => if mw = 0 then some (.ldb d a i14) else none
  | 0x21 => if mw = 0 then some (.ldbu d a i14) else none
  | 0x22 => if mw = 0 then some (.ldh d a i14) else none
  | 0x23 => if mw = 0 then some (.ldhu d a i14) else none
  | 0x24 => if mw = 0 then some (.ldw d a i14) else none
  | 0x25 => if mw = 0 then some (.ldd d a i14) else none
  | 0x26 => some (.ldv d a (Width.ofBits mw) i14)
  | 0x28 => if mw = 0 then some (.stb d a i14) else none
  | 0x29 => if mw = 0 then some (.sth d a i14) else none
  | 0x2A => if mw = 0 then some (.stw d a i14) else none
  | 0x2B => if mw = 0 then some (.std d a i14) else none
  | 0x2C => some (.stv d a (Width.ofBits mw) i14)
  | 0x30 => decodeK (w.extractLsb' 0 4).toNat d a (w.extractLsb' 4 12)
  | 0x31 => decodeFence fn d a b wf
  | 0x32 => decodeGraph fn d a b wf
  | 0x33 => decodeSystem fn d a b wf
  | 0x34 => decodeObject fn d a b wf
  | 0x35 => if fn = 0 ∧ wf = 0 ∧ b = 0 then some (.lnch d a) else none
  | _ => none

/-- The control instruction of a word, or none for an illegal word (R54 to R59). -/
def decodeControl (w : BitVec 32) : Option Instr :=
  match controlOf w with
  | some i => if i.wf then some i else none
  | none => none

/-- The operator of an opcode (R64); none for a reserved code. -/
def operatorOf (code : Nat) (f : OpFields) : Option Instr :=
  match code with
  | 0x01 => some (.mma f)
  | 0x02 => some (.mmaz f)
  | 0x03 => some (.mmat f)
  | 0x04 => some (.mmatz f)
  | 0x05 => some (.cmma f)
  | 0x06 => some (.cmmaz f)
  | 0x07 => some (.qmma f)
  | 0x08 => some (.qmmaz f)
  | 0x09 => some (.accld f)
  | 0x0A => some (.accst f)
  | 0x0B => some (.accz f)
  | 0x0C => some (.accscl f)
  | 0x0D => some (.mcont f)
  | 0x20 => some (.tld f)
  | 0x21 => some (.tst f)
  | 0x22 => some (.sld f)
  | 0x23 => some (.sst f)
  | 0x24 => some (.tldg f)
  | 0x25 => some (.tsts f)
  | 0x26 => some (.atad f)
  | 0x27 => some (.atmn f)
  | 0x28 => some (.atmx f)
  | 0x29 => some (.atxc f)
  | 0x2A => some (.atcs f)
  | 0x2B => some (.rpush f)
  | 0x2C => some (.rpop f)
  | 0x2D => some (.fncEngine f)
  | 0x2E => some (.fncCore f)
  | 0x2F => some (.fncQuad f)
  | 0x30 => some (.fncCluster f)
  | 0x31 => some (.fncDie f)
  | 0x32 => some (.fncDevice f)
  | 0x33 => some (.fncSystem f)
  | 0x34 => some (.stadv f)
  | 0x35 => some (.cnadd f)
  | 0x36 => some (.cnwt f)
  | 0x37 => some (.cnrd f)
  | 0x38 => some (.shop f)
  | 0x39 => some (.publ f)
  | 0x3A => some (.nmiv f)
  | 0x3B => some (.mcst f)
  | 0x3C => some (.cmpr f)
  | 0x3D => some (.lnchOperator f)
  | 0x3E => some (.tkrp f)
  | 0x3F => some (.tkcl f)
  | 0x40 => some (.tkq f)
  | 0x41 => some (.chsv f)
  | 0x42 => some (.chrs f)
  | 0x43 => some (.chrp f)
  | 0x48 => some (.vadd f)
  | 0x49 => some (.vsub f)
  | 0x4A => some (.vmul f)
  | 0x4B => some (.vfma f)
  | 0x4C => some (.vfms f)
  | 0x4D => some (.vdiv f)
  | 0x4E => some (.vsqrt f)
  | 0x4F => some (.vrcp f)
  | 0x50 => some (.vrsq f)
  | 0x51 => some (.vexp f)
  | 0x52 => some (.vexp2 f)
  | 0x53 => some (.vlog2 f)
  | 0x54 => some (.vtanh f)
  | 0x55 => some (.vsigm f)
  | 0x56 => some (.vmax f)
  | 0x57 => some (.vmin f)
  | 0x58 => some (.vabs f)
  | 0x59 => some (.vneg f)
  | 0x5A => some (.vcps f)
  | 0x5B => some (.vsclx f)
  | 0x5C => some (.vcvt f)
  | 0x5D => some (.vcmpEq f)
  | 0x5E => some (.vcmpNe f)
  | 0x5F => some (.vcmpLt f)
  | 0x60 => some (.vcmpLe f)
  | 0x61 => some (.vcmpUn f)
  | 0x62 => some (.vselm f)
  | 0x63 => some (.viadd f)
  | 0x64 => some (.visub f)
  | 0x65 => some (.vimul f)
  | 0x66 => some (.viand f)
  | 0x67 => some (.vior f)
  | 0x68 => some (.vixor f)
  | 0x69 => some (.vishl f)
  | 0x6A => some (.vishr f)
  | 0x6B => some (.vimin f)
  | 0x6C => some (.vimax f)
  | 0x6D => some (.rsumr f)
  | 0x6E => some (.rmaxr f)
  | 0x6F => some (.rminr f)
  | 0x70 => some (.rsumc f)
  | 0x71 => some (.rmaxc f)
  | 0x72 => some (.topk f)
  | 0x73 => some (.vexpd f)
  | 0x74 => some (.vrdiv f)
  | 0x75 => some (.ttrn f)
  | 0x76 => some (.tbrd f)
  | 0x77 => some (.tslc f)
  | 0x78 => some (.tcat f)
  | 0x79 => some (.tfill f)
  | 0x7A => some (.tiota f)
  | 0x7B => some (.tperm f)
  | 0x7C => some (.had f)
  | 0x80 => some (.steer f)
  | 0x81 => some (.select f)
  | 0x82 => some (.merge f)
  | 0x83 => some (.gate f)
  | 0x84 => some (.sync f)
  | 0x85 => some (.cola f)
  | 0x86 => some (.colf f)
  | 0x87 => some (.itnx f)
  | 0x88 => some (.itex f)
  | 0x89 => some (.fork f)
  | 0x8A => some (.bara f)
  | 0x8B => some (.barw f)
  | 0x8C => some (.pand f)
  | 0x8D => some (.por f)
  | 0x8E => some (.pnot f)
  | 0x8F => some (.pcnst f)
  | 0x90 => some (.sink f)
  | 0x91 => some (.pass f)
  | 0xA0 => some (.psn f)
  | 0xA1 => some (.ptst f)
  | 0xA2 => some (.seal f)
  | 0xA3 => some (.trapo f)
  | 0xA4 => some (.dbrk f)
  | 0xA5 => some (.dstp f)
  | 0xA6 => some (.dhld f)
  | _ => none

/-- The engines whose tables an opcode may stand in (R64). -/
def opLegalOn (code : Nat) (e : Eng) : Bool :=
  if 0x01 ≤ code ∧ code ≤ 0x0D then e == .m
  else if 0x20 ≤ code ∧ code ≤ 0x43 then e == .s
  else if 0x48 ≤ code ∧ code ≤ 0x7C then e == .v
  else if (0x80 ≤ code ∧ code ≤ 0x91) ∨ (0xA0 ≤ code ∧ code ≤ 0xA6) then e != .c
  else false

/-- The opcodes that take port p (R64): STEER, SELECT, GATE, PAND, POR, PNOT. -/
def opTakesP (code : Nat) : Bool := [0x80, 0x81, 0x83, 0x8C, 0x8D, 0x8E].contains code

/-- The opcode of an operator word (R62). -/
def wordOp (w : BitVec 32) : Nat := (w.extractLsb' 24 8).toNat

/-- The fields of an operator word (R62). -/
def wordFields (w : BitVec 32) : OpFields :=
  { srcA := w.extractLsb' 21 3, srcB := w.extractLsb' 18 3, dest0 := w.extractLsb' 11 7, dest1 := w.extractLsb' 4 7,
    tag := w.extractLsb' 0 4 }

/-- The operator of a word, or none for a word that GLOAD rejects for every engine (R64, R69). -/
def decodeOperator (w : BitVec 32) : Option Instr :=
  match operatorOf (wordOp w) (wordFields w) with
  | some i => if i.wf then some i else none
  | none => none

/-- The instruction of a word of the opcode table (log 5): an operator where the word is legal as one, else a control
instruction. -/
def decodeTableWord (nbits w : Nat) : Option Instr :=
  if nbits ≠ 32 ∨ 2^32 ≤ w then none
  else match decodeOperator (BitVec.ofNat 32 w) with
    | some i => some i
    | none => decodeControl (BitVec.ofNat 32 w)

/-- A C-R word (R54). -/
def wordR (op : BitVec 6) (d a b : Reg) (w : BitVec 2) (fn : BitVec 9) : BitVec 32 := op ++ d ++ a ++ b ++ w ++ fn

/-- A C-I or C-B word (R54). -/
def wordI (op : BitVec 6) (d a : Reg) (i : BitVec 16) : BitVec 32 := op ++ d ++ a ++ i

/-- A C-M word (R54). -/
def wordM (op : BitVec 6) (d a : Reg) (w : BitVec 2) (i : BitVec 14) : BitVec 32 := op ++ d ++ a ++ w ++ i

/-- A C-K word (R54). -/
def wordK (d a : Reg) (k : BitVec 12) (fn : BitVec 4) : BitVec 32 := (0x30 : BitVec 6) ++ d ++ a ++ k ++ fn

/-- An operator word (R62). -/
def wordOpr (op : BitVec 8) (f : OpFields) : BitVec 32 := op ++ f.srcA ++ f.srcB ++ f.dest0 ++ f.dest1 ++ f.tag

/-- The word of an instruction; none for an event. -/
def encode : Instr → Option (BitVec 32)
  | .add d a b => some (wordR 0x00 d a b 0 0x000)
  | .sub d a b => some (wordR 0x00 d a b 0 0x001)
  | .mul d a b => some (wordR 0x00 d a b 0 0x002)
  | .mulh d a b => some (wordR 0x00 d a b 0 0x003)
  | .div d a b => some (wordR 0x00 d a b 0 0x004)
  | .rem d a b => some (wordR 0x00 d a b 0 0x005)
  | .min d a b => some (wordR 0x00 d a b 0 0x006)
  | .max d a b => some (wordR 0x00 d a b 0 0x007)
  | .and d a b => some (wordR 0x00 d a b 0 0x008)
  | .or d a b => some (wordR 0x00 d a b 0 0x009)
  | .xor d a b => some (wordR 0x00 d a b 0 0x00A)
  | .shl d a b => some (wordR 0x00 d a b 0 0x00B)
  | .shr d a b => some (wordR 0x00 d a b 0 0x00C)
  | .sra d a b => some (wordR 0x00 d a b 0 0x00D)
  | .slt d a b => some (wordR 0x00 d a b 0 0x00E)
  | .sltu d a b => some (wordR 0x00 d a b 0 0x00F)
  | .clz d a => some (wordR 0x00 d a 0 0 0x010)
  | .popc d a => some (wordR 0x00 d a 0 0 0x011)
  | .mov d a w => some (wordR 0x00 d a 0 w.bits 0x012)
  | .addImm d a i => some (wordI 0x02 d a i)
  | .subImm d a i => some (wordI 0x03 d a i)
  | .mulImm d a i => some (wordI 0x04 d a i)
  | .mulhImm d a i => some (wordI 0x05 d a i)
  | .divImm d a i => some (wordI 0x06 d a i)
  | .remImm d a i => some (wordI 0x07 d a i)
  | .minImm d a i => some (wordI 0x08 d a i)
  | .maxImm d a i => some (wordI 0x09 d a i)
  | .andImm d a i => some (wordI 0x0A d a i)
  | .orImm d a i => some (wordI 0x0B d a i)
  | .xorImm d a i => some (wordI 0x0C d a i)
  | .shlImm d a i => some (wordI 0x0D d a i)
  | .shrImm d a i => some (wordI 0x0E d a i)
  | .sraImm d a i => some (wordI 0x0F d a i)
  | .sltImm d a i => some (wordI 0x10 d a i)
  | .sltuImm d a i => some (wordI 0x11 d a i)
  | .lui d i => some (wordI 0x12 d 0 i)
  | .adpc d i => some (wordI 0x13 d 0 i)
  | .jal d o => some ((0x14 : BitVec 6) ++ d ++ o)
  | .jalr d a i => some (wordI 0x15 d a i)
  | .beq a b o => some (wordI 0x18 a b o)
  | .bne a b o => some (wordI 0x19 a b o)
  | .blt a b o => some (wordI 0x1A a b o)
  | .bge a b o => some (wordI 0x1B a b o)
  | .bltu a b o => some (wordI 0x1C a b o)
  | .bgeu a b o => some (wordI 0x1D a b o)
  | .loop a o => some (wordI 0x1E a 0 o)
  | .loopx => some (wordI 0x1F 0 0 0)
  | .ldb d a i => some (wordM 0x20 d a 0 i)
  | .ldbu d a i => some (wordM 0x21 d a 0 i)
  | .ldh d a i => some (wordM 0x22 d a 0 i)
  | .ldhu d a i => some (wordM 0x23 d a 0 i)
  | .ldw d a i => some (wordM 0x24 d a 0 i)
  | .ldd d a i => some (wordM 0x25 d a 0 i)
  | .ldv d a w i => some (wordM 0x26 d a w.bits i)
  | .stb r a i => some (wordM 0x28 r a 0 i)
  | .sth r a i => some (wordM 0x29 r a 0 i)
  | .stw r a i => some (wordM 0x2A r a 0 i)
  | .std r a i => some (wordM 0x2B r a 0 i)
  | .stv r a w i => some (wordM 0x2C r a w.bits i)
  | .amadd d a b => some (wordR 0x01 d a b 0 0)
  | .amswp d a b => some (wordR 0x01 d a b 0 1)
  | .amcas d a b => some (wordR 0x01 d a b 0 2)
  | .krd d k => some (wordK d 0 k 0)
  | .kwr a k => some (wordK 0 a k 1)
  | .kset a k => some (wordK 0 a k 2)
  | .kclr a k => some (wordK 0 a k 3)
  | .fenceEngine => some (wordR 0x31 0 0 0 0 0)
  | .fenceCore => some (wordR 0x31 0 0 0 0 1)
  | .fenceQuad => some (wordR 0x31 0 0 0 0 2)
  | .fenceCluster => some (wordR 0x31 0 0 0 0 3)
  | .fenceDie => some (wordR 0x31 0 0 0 0 4)
  | .fenceDevice => some (wordR 0x31 0 0 0 0 5)
  | .fenceSystem => some (wordR 0x31 0 0 0 0 6)
  | .gload d a => some (wordR 0x32 d a 0 0 0)
  | .dset d a b => some (wordR 0x32 d a b 0 1)
  | .inj b => some (wordR 0x32 0 0 b 2 2)
  | .injp a b => some (wordR 0x32 0 a b 1 3)
  | .trecv d => some (wordR 0x32 d 0 0 2 4)
  | .ecall => some (wordR 0x33 0 0 0 0 0)
  | .ebreak => some (wordR 0x33 0 0 0 0 1)
  | .eret => some (wordR 0x33 0 0 0 0 2)
  | .wfe => some (wordR 0x33 0 0 0 0 3)
  | .sev => some (wordR 0x33 0 0 0 0 4)
  | .orset a b => some (wordR 0x34 0 a b 0 0)
  | .orinv a b => some (wordR 0x34 0 a b 0 1)
  | .ormov a b => some (wordR 0x34 0 a b 0 2)
  | .orres a b => some (wordR 0x34 0 a b 0 3)
  | .lnch d a => some (wordR 0x35 d a 0 0 0)
  | .mma f => some (wordOpr 0x01 f)
  | .mmaz f => some (wordOpr 0x02 f)
  | .mmat f => some (wordOpr 0x03 f)
  | .mmatz f => some (wordOpr 0x04 f)
  | .cmma f => some (wordOpr 0x05 f)
  | .cmmaz f => some (wordOpr 0x06 f)
  | .qmma f => some (wordOpr 0x07 f)
  | .qmmaz f => some (wordOpr 0x08 f)
  | .accld f => some (wordOpr 0x09 f)
  | .accst f => some (wordOpr 0x0A f)
  | .accz f => some (wordOpr 0x0B f)
  | .accscl f => some (wordOpr 0x0C f)
  | .mcont f => some (wordOpr 0x0D f)
  | .tld f => some (wordOpr 0x20 f)
  | .tst f => some (wordOpr 0x21 f)
  | .sld f => some (wordOpr 0x22 f)
  | .sst f => some (wordOpr 0x23 f)
  | .tldg f => some (wordOpr 0x24 f)
  | .tsts f => some (wordOpr 0x25 f)
  | .atad f => some (wordOpr 0x26 f)
  | .atmn f => some (wordOpr 0x27 f)
  | .atmx f => some (wordOpr 0x28 f)
  | .atxc f => some (wordOpr 0x29 f)
  | .atcs f => some (wordOpr 0x2A f)
  | .rpush f => some (wordOpr 0x2B f)
  | .rpop f => some (wordOpr 0x2C f)
  | .fncEngine f => some (wordOpr 0x2D f)
  | .fncCore f => some (wordOpr 0x2E f)
  | .fncQuad f => some (wordOpr 0x2F f)
  | .fncCluster f => some (wordOpr 0x30 f)
  | .fncDie f => some (wordOpr 0x31 f)
  | .fncDevice f => some (wordOpr 0x32 f)
  | .fncSystem f => some (wordOpr 0x33 f)
  | .stadv f => some (wordOpr 0x34 f)
  | .cnadd f => some (wordOpr 0x35 f)
  | .cnwt f => some (wordOpr 0x36 f)
  | .cnrd f => some (wordOpr 0x37 f)
  | .shop f => some (wordOpr 0x38 f)
  | .publ f => some (wordOpr 0x39 f)
  | .nmiv f => some (wordOpr 0x3A f)
  | .mcst f => some (wordOpr 0x3B f)
  | .cmpr f => some (wordOpr 0x3C f)
  | .lnchOperator f => some (wordOpr 0x3D f)
  | .tkrp f => some (wordOpr 0x3E f)
  | .tkcl f => some (wordOpr 0x3F f)
  | .tkq f => some (wordOpr 0x40 f)
  | .chsv f => some (wordOpr 0x41 f)
  | .chrs f => some (wordOpr 0x42 f)
  | .chrp f => some (wordOpr 0x43 f)
  | .vadd f => some (wordOpr 0x48 f)
  | .vsub f => some (wordOpr 0x49 f)
  | .vmul f => some (wordOpr 0x4A f)
  | .vfma f => some (wordOpr 0x4B f)
  | .vfms f => some (wordOpr 0x4C f)
  | .vdiv f => some (wordOpr 0x4D f)
  | .vsqrt f => some (wordOpr 0x4E f)
  | .vrcp f => some (wordOpr 0x4F f)
  | .vrsq f => some (wordOpr 0x50 f)
  | .vexp f => some (wordOpr 0x51 f)
  | .vexp2 f => some (wordOpr 0x52 f)
  | .vlog2 f => some (wordOpr 0x53 f)
  | .vtanh f => some (wordOpr 0x54 f)
  | .vsigm f => some (wordOpr 0x55 f)
  | .vmax f => some (wordOpr 0x56 f)
  | .vmin f => some (wordOpr 0x57 f)
  | .vabs f => some (wordOpr 0x58 f)
  | .vneg f => some (wordOpr 0x59 f)
  | .vcps f => some (wordOpr 0x5A f)
  | .vsclx f => some (wordOpr 0x5B f)
  | .vcvt f => some (wordOpr 0x5C f)
  | .vcmpEq f => some (wordOpr 0x5D f)
  | .vcmpNe f => some (wordOpr 0x5E f)
  | .vcmpLt f => some (wordOpr 0x5F f)
  | .vcmpLe f => some (wordOpr 0x60 f)
  | .vcmpUn f => some (wordOpr 0x61 f)
  | .vselm f => some (wordOpr 0x62 f)
  | .viadd f => some (wordOpr 0x63 f)
  | .visub f => some (wordOpr 0x64 f)
  | .vimul f => some (wordOpr 0x65 f)
  | .viand f => some (wordOpr 0x66 f)
  | .vior f => some (wordOpr 0x67 f)
  | .vixor f => some (wordOpr 0x68 f)
  | .vishl f => some (wordOpr 0x69 f)
  | .vishr f => some (wordOpr 0x6A f)
  | .vimin f => some (wordOpr 0x6B f)
  | .vimax f => some (wordOpr 0x6C f)
  | .rsumr f => some (wordOpr 0x6D f)
  | .rmaxr f => some (wordOpr 0x6E f)
  | .rminr f => some (wordOpr 0x6F f)
  | .rsumc f => some (wordOpr 0x70 f)
  | .rmaxc f => some (wordOpr 0x71 f)
  | .topk f => some (wordOpr 0x72 f)
  | .vexpd f => some (wordOpr 0x73 f)
  | .vrdiv f => some (wordOpr 0x74 f)
  | .ttrn f => some (wordOpr 0x75 f)
  | .tbrd f => some (wordOpr 0x76 f)
  | .tslc f => some (wordOpr 0x77 f)
  | .tcat f => some (wordOpr 0x78 f)
  | .tfill f => some (wordOpr 0x79 f)
  | .tiota f => some (wordOpr 0x7A f)
  | .tperm f => some (wordOpr 0x7B f)
  | .had f => some (wordOpr 0x7C f)
  | .steer f => some (wordOpr 0x80 f)
  | .select f => some (wordOpr 0x81 f)
  | .merge f => some (wordOpr 0x82 f)
  | .gate f => some (wordOpr 0x83 f)
  | .sync f => some (wordOpr 0x84 f)
  | .cola f => some (wordOpr 0x85 f)
  | .colf f => some (wordOpr 0x86 f)
  | .itnx f => some (wordOpr 0x87 f)
  | .itex f => some (wordOpr 0x88 f)
  | .fork f => some (wordOpr 0x89 f)
  | .bara f => some (wordOpr 0x8A f)
  | .barw f => some (wordOpr 0x8B f)
  | .pand f => some (wordOpr 0x8C f)
  | .por f => some (wordOpr 0x8D f)
  | .pnot f => some (wordOpr 0x8E f)
  | .pcnst f => some (wordOpr 0x8F f)
  | .sink f => some (wordOpr 0x90 f)
  | .pass f => some (wordOpr 0x91 f)
  | .psn f => some (wordOpr 0xA0 f)
  | .ptst f => some (wordOpr 0xA1 f)
  | .seal f => some (wordOpr 0xA2 f)
  | .trapo f => some (wordOpr 0xA3 f)
  | .dbrk f => some (wordOpr 0xA4 f)
  | .dstp f => some (wordOpr 0xA5 f)
  | .dhld f => some (wordOpr 0xA6 f)
  | .fenceComplete .. => none
  | .gloadSwitchWrite .. => none
  | .injAccept .. => none
  | .trecvReturn .. => none
  | .wfeWake .. => none
  | .lnchAccept .. => none
  | .asyncTrapEntry .. => none
  | .eosFiring .. => none
  | .firingResultSend .. => none
  | .tokenArrival .. => none
  | .errorEosArrival .. => none
  | .ingressHeldTokenPlace .. => none
  | .tilePacketPlace .. => none
  | .allocationGrant .. => none
  | .overflowDrawerMove .. => none
  | .colourReturn .. => none
  | .energyRefill .. => none
  | .dataflowStallDetect .. => none
  | .memoryResponseArrival .. => none
  | .retireNotice .. => none
  | .barrierArrivalPerform .. => none
  | .barrierWaitAnswer .. => none
  | .counterAddPerform .. => none
  | .counterWaitSatisfied .. => none
  | .ringOpPerform .. => none
  | .nearMemoryInvocation .. => none
  | .hubCommandPerform .. => none
  | .relocationUnitCopy .. => none
  | .relocationFlip .. => none
  | .generationDrainPost .. => none
  | .haltLineRise .. => none
  | .preEmptionRequest .. => none
  | .engineStop .. => none
  | .contextHalted .. => none
  | .faultServiceResume .. => none
  | .faultRefusal .. => none
  | .contextSave .. => none
  | .contextRestore .. => none
  | .haltLineFall .. => none
  | .refusedTokenResend .. => none
  | .sectionSeal .. => none
  | .sectionFinish .. => none
  | .contextLost .. => none
  | .contextCreate .. => none
  | .nodeStart .. => none
  | .nodeEnd .. => none
  | .launchComplete .. => none
  | .copyEntryRun .. => none
  | .copyCounterPost .. => none
  | .remoteRequestAtOwner .. => none
  | .ticketReceipt .. => none
  | .replayNotice .. => none
  | .refuseNotice .. => none
  | .rejectAnswer .. => none
  | .cancelAtOwner .. => none
  | .fabricPacketForward .. => none
  | .undeliverableNotice .. => none
  | .fabricAck .. => none
  | .packetAgePromotion .. => none
  | .flitGroupReceive .. => none
  | .ack .. => none
  | .nack .. => none
  | .idle .. => none
  | .keysw .. => none
  | .retrain .. => none
  | .keyGenerationErase .. => none
  | .getVersion .. => none
  | .getCapabilities .. => none
  | .negotiateAlgorithms .. => none
  | .getDigests .. => none
  | .getCertificate .. => none
  | .challenge .. => none
  | .getMeasurements .. => none
  | .keyExchange .. => none
  | .finish .. => none
  | .keyUpdate .. => none
  | .endSession .. => none
  | .pskExchange .. => none
  | .doorbell .. => none
  | .queueEntryAccept .. => none
  | .bar0OtherWrite .. => none
  | .bar2Access .. => none
  | .admitStream .. => none
  | .withdrawStream .. => none
  | .makePageExecutable .. => none
  | .removeExecute .. => none
  | .attachDolz .. => none
  | .detachDolz .. => none
  | .writeRouteEntries .. => none
  | .portBringUp .. => none
  | .portStart .. => none
  | .portStop .. => none
  | .moveBar2Window .. => none
  | .createUserQueue .. => none
  | .removeUserQueue .. => none
  | .deviceBoot .. => none
  | .recoveryImageAccept .. => none
  | .rollbackAdvance .. => none
  | .debugContinue .. => none
  | .singleStep .. => none
  | .instructionFetchFault .. => none
  | .queueSlotMap .. => none
  | .ownerRefusesService .. => none
  | .managementSetsWindows .. => none
  | .promotionThresholdSet .. => none
  | .imageLoad .. => none

end Sys2Proof
end

