-- ==== Sys2Proof/Packet.lean ====
section
/-! DEFINITION. Tokens, and what travels between devices: packets (R327), and the bodies of the flits that carry them (R331). -/

namespace Sys2Proof.Machine

/-- A token: header (R15, R70) and payload (R71). Port and kind keep their codes, reserved ones included. -/
structure Token where
  core : Nat
  eng : Eng
  slot : Nat
  port : Nat
  ctx : Nat
  col : Nat
  kind : Nat
  sect : Nat
  psn : Bool
  seq : Nat
  tag : BitVec 32
  w0 : Word
  w1 : Word
deriving DecidableEq, Repr

/-- A token in flight (R17): who sent it, and for a tile packet to another core (R14) the tile's bytes. -/
structure NetTok where
  srcCore : Nat
  srcEng : Eng
  tok : Token
  body : Option (List Byte)
  fromDev : Option Nat
  toDev : Option Nat
  strm : Nat
deriving DecidableEq, Repr

/-- An answer or notice of an owner to another device (R340, R341): an old value comes with the flags that its update set, as bits 4 to 0 of
R45 (R245; log 62). -/
inductive Answer where
  | data (bytes : List Byte)
  | ack
  | old (w : Word) (ok : Bool) (flags : Nat)
  | ticket (id block gen : Nat)
  | reject
  | replay (id : Nat)
  | refuse (id : Nat)
  | undeliverable (ctx : Nat)
deriving DecidableEq, Repr

/-- What a fabric packet carries (R288, R293, R327, R330, R339). -/
inductive PacketBody where
  | token (t : NetTok)
  | request (r : RemoteReq)
  | answer (core order : Nat) (a : Answer)
  | retire (dedup : Nat)
  | refused (t : NetTok)
  | acked (count : Nat)
  | cancel (handle block : Nat)
  | replayRefused (core id : Nat)
deriving DecidableEq, Repr

/-- A packet at a hub (R327): source, destination, hops crossed, class (R214), poison mark, age mark. -/
structure Packet where
  srcDev : Nat
  srcCore : Nat
  ctx : Nat
  dstDev : Nat
  hops : Nat
  cls : Nat
  poison : Bool
  body : PacketBody
  since : Nat
  promoted : Bool
deriving DecidableEq, Repr

/-- The packet bytes of one data flit (R331): its virtual channel (hop level and class), whether they belong to a poison packet, the 56
bytes, and at the sender the packet that ends with them. -/
structure FlitBody where
  hop : Nat
  cls : Nat
  psn : Bool
  body : BitVec 448
  last : Option Packet
deriving DecidableEq, Repr

/-- A token that this device has refused and that has not come again (R293): its source's device, core and context, and the core it is
for. -/
structure Refused where
  dev : Nat
  src : Nat
  ctx : Nat
  dst : Nat
deriving DecidableEq, Repr

/-- A REPLAY that a requester has refused, its context being saved (R293, R345): the requester's device, context and core, and the ticket. -/
structure HeldReplay where
  dev : Nat
  ctx : Nat
  core : Nat
  id : Nat
deriving DecidableEq, Repr

/-- The algorithms of NEGOTIATE_ALGORITHMS and ALGORITHMS (R334): BaseAsymAlgo, the extended asymmetric structures (RegistryID,
reserved, AlgorithmID), and whether BaseHashAlgo and MeasurementHashAlgo select SHA-256, the AEAD is AES-256-GCM and the group P-384. -/
structure SpdmAlgs where
  baseAsym : Nat
  extAsym : List (Nat × Nat × Nat)
  hashSha256 : Bool
  measSha256 : Bool
  aeadAesGcm : Bool
  dheP384 : Bool
deriving DecidableEq, Repr


/-- What the HN7 says in an SPDM session (R334): its answers, and its own requests (log 15). -/
inductive SpdmReply where
  | version
  | capabilities
  | algorithms (a : SpdmAlgs)
  | digests
  | certificate
  | challengeAuth
  | measurements (regs : List (BitVec 256))
  | keyExchangeRsp
  | finishRsp
  | keyUpdateAck
  | endSessionAck
  | refused
  | getVersion
  | getCapabilities
  | negotiateAlgorithms (a : SpdmAlgs)
  | getDigests
  | getCertificate
  | challenge
  | getMeasurements
  | keyExchange
  | finish
  | keyUpdate
deriving DecidableEq, Repr

end Sys2Proof.Machine
end

