-- ==== Sys2Proof/Config.lean ====
section
/-! DEFINITION. What an implementation or a standard outside the spec fixes, and the free values: constants without
a body, so that no proof can rest on a value of theirs. -/

namespace Sys2Proof.Config

/-- An undefined byte (R12, R131, R140): the argument is State's counter `free`, a new number for each byte. Log 7. -/
opaque freeByte : Nat → Byte

/-- An undefined 64-bit value; the argument is State's counter `free`. Log 7. -/
opaque freeWord : Nat → Word

/-- A near-memory subgraph 16 to 63 that management installs (R265): from its id, the 512 bytes it may read and
write, the byte offset of the element in them and the two operands, it gives the new 512 bytes, the scalar result and the elements of a tile result.
The spec gives no contents. Log 20. -/
opaque nmSubgraph : Nat → List Byte → Nat → Word → Word → List Byte × Word × List (BitVec 80)

/-- The columns of a near-memory subgraph's result tile, 0 for a scalar result (R266). Log 20. -/
opaque nmColumns : Nat → Nat

/-- The AES-256 key of one direction of a port's session (R334, R336), derived from the session's secrets: session number, key
generation count, and whether it is the sending key. Log 15. -/
opaque linkKey : Nat → Nat → Bool → BitVec 256

/-- The bytes of a fabric packet as the bodies of its data flits, whose layout the spec does not give. Log 28. -/
opaque packetBodies : Machine.Packet → List (BitVec 448)

/-- The packet that the first of some bodies of one virtual channel make, with how many it takes; none while more must come. Log 28. -/
opaque packetOf : List (BitVec 448) → Option (Nat × Machine.Packet)

/-- The bytes of an SPDM message that the HN7 sends (R334), from what it says and the bytes of the message it answers, if any. Log 15. -/
opaque spdmBytes : Machine.SpdmReply → List Byte → List Byte

/-- Whether an image's SLH-DSA-SHA2-128s signature verifies against the fused key (R362). Log 15. -/
opaque imageSigOk : List Byte → Bool

/-- SHA-256 (R362 step 5). Log 15. -/
opaque sha256 : List Byte → BitVec 256

/-- Whether an SPDM message's authentication checks pass (R334): signatures, digests and certificate chain. Log 15. -/
opaque spdmAuthOk : List Byte → Bool

/-- The bytes of the boot ROM, which the spec does not give (R362). Log 15. -/
opaque bootRom : List Byte

/-- The sign of an exact zero that arises when two addends of opposite sign cancel in VADD, VSUB, VFMA, VFMS, VEXPD or
ATAD, by rounding-mode code: R41 leaves it to the operation's rule, and no rule states it. Log 11. -/
opaque zeroSumSign : Nat → Bool

end Sys2Proof.Config
end

