-- ==== Sys2Proof/Machine/State.lean ====
section
/-! DEFINITION. The state of one HN7 as plain data, and the machine right after reset.
Each structure cites the rule that names it. Small numbers (indexes, ids, counts) are Nat; words that software
reads or writes whole are bit vectors. -/

namespace Sys2Proof.Machine

/-- All of memory as (address, byte) pairs: addresses strictly rising, no byte 0 (an unlisted address reads 0, log 3).
Device addresses (R198) are their own key; byte a of core c's control-core address space (R86) has key
(c + 1) * 2^48 + a (log 3). -/
abbrev Memory := List Host.Cell

/-- A write of consecutive bytes to memory, in the order made. -/
structure Write where
  addr : Nat
  bytes : List Byte
deriving DecidableEq, Repr

/-- An operator slot with its side record and section (R18, R62, R65, R109). -/
structure Slot where
  core : Nat
  ctx : Nat
  eng : Eng
  slot : Nat
  word : BitVec 32
  lit0 : Word
  lit1 : Word
  acc : Nat
  ecls : Nat
  rm : Nat
  brk : Bool
  edge : Nat
  fen : Bool
  fcol : Nat
  sect : Nat
deriving DecidableEq, Repr

/-- A written destination entry (R66); an entry not listed is in its reset state, 0. -/
structure Dest where
  core : Nat
  ctx : Nat
  eng : Eng
  idx : Nat
  entry : Word
deriving DecidableEq, Repr

/-- An unmatched Drawer (R22), in the engine's store or, by its place there, in the core's overflow drawers (R178). List order is age. -/
structure Drawer where
  core : Nat
  ctx : Nat
  eng : Eng
  slot : Nat
  col : Nat
  a : Option Token
  b : Option Token
  p : Option Token
  overflow : Option Nat
deriving DecidableEq, Repr

/-- A matched Drawer in its engine's ready order (R174), or in a colour-wait queue (R166). `seq` is the match order,
`ck` when it was matched, `since` when it entered the colour wait, `got` a colour already received, `cont` set once
the debugger has continued past its breakpoint (R304). -/
structure Ready where
  core : Nat
  ctx : Nat
  eng : Eng
  slot : Nat
  col : Nat
  a : Option Token
  b : Option Token
  p : Option Token
  overflow : Option Nat
  seq : Nat
  ck : Nat
  since : Nat
  got : Option Nat
  cont : Bool
deriving DecidableEq, Repr

/-- An object record (R199). SHAPE and STRIDE list dimension 1 (the last) first, six entries each. -/
structure ObjRec where
  stride : List Nat
  shape : List Nat
  shadow : Nat
  base : Nat
  owner : Nat
  ctx : Nat
  igen : Nat
  gen : Nat
  kind : Nat
  gsz : Nat
  had : Bool
  sat : Bool
  rm : Nat
  perm : BitVec 4
  layout : Nat
  rank : Nat
  fmt : Nat
  ppend : Bool
  st : Nat
deriving DecidableEq, Repr

/-- One memory access of an S firing or copy entry after translation (R129, R204): the record as translated, the base
coordinate (dimension 1 first), the offset of each row in dimension 2, the columns, EDGE PAD, the rounding mode, the
store scale and the pad value (lit1), and the tile's descriptor. -/
structure Access where
  handle : Nat
  obj : ObjRec
  x : List Nat
  rows : List Int
  cols : Nat
  pad : Bool
  mode : Nat
  lit1 : Word
  desc : Word
  desc1 : Word
deriving DecidableEq, Repr

/-- What an outstanding firing still has to do at memory (R135, R251, R268). -/
inductive Job where
  | none
  | load (t : Access)
  | store (t : Access)
  | scalarLoad (t : Access)
  | scalarStore (t : Access) (v : Word) (asInt : Bool)
  | atomic (t : Access) (op : Nat) (scope : Nat) (v : Word) (vUns : Bool) (w : Word)
  | invoke (t : Access) (sub : Nat) (v : Word) (w : Word)
  | push (handle : Nat) (obj : ObjRec) (desc desc1 : Word) (marker : Nat) (mode : Nat)
  | pop (handle : Nat) (obj : ObjRec)
  | fence (scope : Nat)
  | counterAdd (handle : Nat) (obj : ObjRec) (idx : Nat) (v : Nat)
  | counterWait (handle : Nat) (obj : ObjRec) (idxs : List Nat) (target : Nat)
  | counterRead (handle : Nat) (obj : ObjRec) (idx : Nat)
  | barrierArrive (handle : Nat) (obj : ObjRec)
  | barrierWait (handle : Nat) (obj : ObjRec) (g : Nat)
  | hub (handle : Nat) (publ : Bool)
  | completion (t : Access) (wsel : Nat)
  | launch (places : List Nat)
  | chestWait
  | snapshot (t : Access) (bytes : List Byte)
  | ticketResult (bench : Nat)
  | mma (op set groups : Nat) (r c : Nat) (poisoned : Bool)
deriving DecidableEq, Repr

/-- What a firing sends (R19): a value for the listed non-discard destination codes. -/
inductive OutVal where
  | scalar (w : Word) (poison : Bool)
  | newTile (desc : Word) (bytes : List Byte) (poison : Bool)
  | tile (desc desc1 : Word) (poison : Bool)
  | forward (t : Token)
  | pred (b : Bool)
  | eos
  | errorEos
  | multicast (entry : Word) (t : Token)
deriving DecidableEq, Repr

/-- One output of a firing with its colour and tag (R164). -/
structure Out where
  codes : List Nat
  val : OutVal
  col : Nat
  tag : BitVec 32
deriving DecidableEq, Repr

/-- Where a firing stands between its choice for issue and its last send; one that has sent stays as `sent` while its Chest
entry waits for its Bench entry (R343), and one that a halt has stopped before its end is `stopped` (R284). -/
inductive Phase where
  | issuing
  | waitSpace
  | working
  | ready
  | sent
  | stopped
deriving DecidableEq, Repr

/-- A firing (R19, R24, R141): what it consumed, what it will send, and what it still waits for. `busy` is the ck at which its
occupancy ends, or the ck of occupancy that remain while it waits for space or is stopped. `prog` counts what was done before
`start`: the rows a memory firing has issued, M's k-groups, FORK's copies (R284). `occ` is its whole occupancy and `born` the ck of its
issue. `strm` is the reserved stream on which its requests and their replies travel, 0 for best-effort (R280). -/
structure Firing where
  id : Nat
  core : Nat
  ctx : Nat
  eng : Eng
  slot : Nat
  sect : Nat
  op : Nat
  col : Nat
  tag : BitVec 32
  a : Option Token
  b : Option Token
  p : Option Token
  got : Option Nat
  outCol : Nat
  outTag : BitVec 32
  freeCol : Option Nat
  outs : List Out
  release : List Nat
  phase : Phase
  start : Nat
  due : Nat
  genHeld : Bool
  strm : Nat
  inOrder : Bool
  order : Option Nat
  job : Job
  prog : Nat
  sealed : Bool
  eos : Bool
  psum : Option Nat
  busy : Nat
  occ : Nat
  born : Nat
  mseq : Nat
  mck : Nat
deriving DecidableEq, Repr

/-- An allocation record of a core's scratchpad (R12, R13): a run of 512-byte granules. -/
structure Alloc where
  core : Nat
  idx : Nat
  base : Nat
  len : Nat
  refs : Nat
  ctx : Nat
deriving DecidableEq, Repr

/-- Who asks the tile allocator for space (R12, R14, R119, R309). -/
inductive AllocFor where
  | firing (id : Nat)
  | packet (t : NetTok)
  | saveArea (ctx : Nat)
  | psum (id : Nat)
deriving DecidableEq, Repr

/-- A waiting allocation request (R12). -/
structure AllocReq where
  core : Nat
  bytes : Nat
  who : AllocFor
deriving DecidableEq, Repr

/-- What the device that holds a block has answered for an element of it (R206): its bytes on the wire, none for a store, and whether they
are poison. -/
structure Got where
  x : List Nat
  bytes : List Byte
  poison : Bool
deriving DecidableEq, Repr

/-- A Chest entry (R286). `result` and `ok` are what the bank returned, `done` that it has performed the operation, and `cell` the
elements of a tile access that memory has performed, one row after the other (R127, R223). `counted` says that its access stands in the
in-flight count (R208), `owner` is the device of its object (R288), and `got` holds the elements accessed at the devices that hold
their blocks (R206). -/
structure Chest where
  core : Nat
  ctx : Nat
  order : Nat
  st : Nat
  cls : Nat
  kind : Nat
  slot : Nat
  eng : Nat
  col : Nat
  tag : BitVec 32
  sect : Nat
  gen : Nat
  handle : Nat
  row : Nat
  cell : Nat
  alloc : Nat
  dedup : Nat
  arg : Word
  fid : Nat
  rows : Nat
  done : Bool
  result : Word
  ok : Bool
  poison : Bool
  counted : Bool
  owner : Nat
  got : List Got
deriving DecidableEq, Repr

/-- A Bench entry (R343). The model's own: `ticketed`, the owner has given it a ticket; `blocks`, those of its access; `part`, the request
of an entry that stands for the elements of one block of this device's own object at the device that holds the block (R206). -/
structure Bench where
  core : Nat
  idx : Nat
  st : Nat
  order : Nat
  owner : Nat
  ohandle : Nat
  block : Nat
  ticket : Nat
  serial : Nat
  wait : Bool
  result : Word
  ok : Bool
  ctx : Nat
  ogen : Nat
  ticketed : Bool
  handle : Nat
  op : Nat
  isRead : Bool
  fid : Nat
  sect : Nat
  blocks : List Nat
  part : Option RemoteReq
deriving DecidableEq, Repr

/-- Colours or poison marks aside, one accumulator set (R119): elements listed by 64*i + j where they differ from +0,
scales listed by 2*j + g where they differ from 1.0. -/
structure AccSet where
  elems : List (Nat × BitVec 80)
  sigma : List (Nat × BitVec 80)
  pmark : Bool
deriving DecidableEq, Repr

/-- A section on one core (R161): its count and whether it is spent there. -/
structure SectCore where
  sect : Nat
  count : Nat
  spent : Bool
deriving DecidableEq, Repr

/-- Why an engine is stopped for a context, with its stop record (R308); `e` is 0 M, 1 V, 2 S, 3 C, 4 replayer, `stepped` the
firing of a single-step that has not sent yet (R306). -/
structure Stop where
  e : Nat
  reason : Nat
  record : BitVec 512
  stepped : Option Nat
deriving DecidableEq, Repr

/-- Where a context stands with respect to halts, saves and its end (R283 to R302). -/
inductive CtxPhase where
  | resident
  | halting
  | halted
  | saving
  | saved
  | restoring
  | lost
deriving DecidableEq, Repr

/-- What a waiting control-core instruction waits for (R93). -/
inductive Wait where
  | none
  | trecv (d : Reg)
  | inject (t : Token)
  | wfe
  | fence (scope : Nat)
  | launch (d : Reg) (places : List Nat)
  | gloadSwitch (d : Reg) (addr : Nat)
  | orres (handle : Nat) (block : Word) (ask : Nat)
deriving DecidableEq, Repr

/-- Whether a control core runs (R85, R94, R95, R304). -/
inductive CtlRun where
  | idle
  | running
  | stopped (reason : Nat)
  | halted
deriving DecidableEq, Repr

/-- The control core of one core (R83, R89, R90). `status` holds k.status without RQN, which is computed.
`raised`, `brkPassed` and `steps` are the model's own: the ck in which the HN7 last set PEND bits and those it set in it (R108), the
comparator at the pc has been passed (R305), and the instructions left of a single-step (R306). -/
structure Ctl where
  core : Nat
  owner : Option Nat
  run : CtlRun
  regs : Vector Word 32
  pc : Word
  status : Word
  cause : Word
  epc : Word
  tval : Word
  tvec : Word
  lstart : Word
  lend : Word
  lcount : Word
  seq : Word
  exec : BitVec 32
  rq : List Token
  lastTile : Option Nat
  sbuf : List Write
  cmps : List (Bool × Nat)
  seals : List (Nat × Nat)
  trapos : List Word
  stallDie : Nat
  wait : Wait
  raised : Nat × Word
  brkPassed : Bool
  steps : Option Nat
deriving DecidableEq, Repr

/-- What a core has given up for a saved context (R291, R292): its control core, Drawers, ready orders, waits for space, tokens at the
ingress, granules and Chest entries, and whether M held its sets. -/
structure SavedPart where
  ctl : Option Ctl
  drawers : List Drawer
  ready : List Ready
  cwait : List Ready
  reqs : List AllocReq
  ingress : List NetTok
  allocs : List Alloc
  chest : List Chest
  heldM : Bool
deriving DecidableEq, Repr

/-- What belongs to one context on one core (R159, R165, R176, R261, R119). `raised` is the model's own: the ck in which flags were
last raised and those raised in it (R45). -/
structure CoreCtx where
  core : Nat
  ctx : Nat
  fpmode : Word
  fpflags : Word
  raised : Nat × Word
  ebudget : Nat
  shortfall : Nat
  rstg : Nat
  pool : List (Nat × Nat)
  sects : List SectCore
  eosSeen : List (Eng × Nat × Nat × Nat)
  accs : List AccSet
  areaAsked : Bool
  area : Option Nat
  everInM : Bool
  i2seq : Nat
  order : Nat
  stops : List Stop
  cont : Option (BitVec 512)
  part : Option SavedPart
deriving DecidableEq, Repr

/-- Whether the context has been saved from this core. -/
def CoreCtx.saved (y : CoreCtx) : Bool := y.part.isSome

/-- A section of a context (R161, R257). -/
structure Section where
  id : Nat
  tiles : Nat
  blocks : List (Nat × Nat)
  toks : Nat × Nat
  cset : BitVec 384
  active : Bool
  finished : Bool
  sealed : Bool
deriving DecidableEq, Repr

/-- How a node of the dependence walk stands or ended (R260). -/
inductive NodeEnd where
  | waiting
  | started
  | finished
  | sealed
  | failed
  | abandoned
deriving DecidableEq, Repr

/-- A node of the dependence walk (R260): sections first, then copies. -/
structure Node where
  copy : Bool
  idx : Nat
  preds : Nat
  st : NodeEnd
deriving DecidableEq, Repr

/-- A copy-schedule entry (R258) with its progress (R262): eligible, running, rows read and written, counter add issued; `got` the
bytes that another device has answered for its source, `sent` those that its destination's owner is still to get. -/
structure Copy where
  entry : BitVec 512
  eligible : Bool
  running : Bool
  rowsDone : Nat
  got : Option (List Byte)
  sent : List Byte
  src : Option Access
  dst : Option Access
  srcOrder : Nat
  dstOrder : Nat
  written : Bool
  posting : Bool
  ended : Bool
deriving DecidableEq, Repr

/-- A cause of a halt (R283, R290): kind (0 for DHLD), core, engine (4 the replayer), slot, handle, generation, block, and the
Chest order of a faulted entry. -/
structure HaltCause where
  kind : Nat
  core : Nat
  e : Nat
  slot : Nat
  handle : Nat
  gen : Nat
  block : Nat
  order : Option Nat
deriving DecidableEq, Repr

/-- What `dolz` does with a context it is attached to (R193, R321): `break fault`; the ck since which it holds the context; the ck spent
held or saved, which a stop line leaves out; the ck at which a save ended; whether the halt has had a recoverable fault or a pre-emption, so
that a stop before the halt line falls is due; and the core and engine whose stop record was written last. -/
structure Watch where
  onFault : Bool
  held : Option Nat
  away : Nat
  savedAt : Option Nat
  due : Bool
  last : Nat × Nat
deriving DecidableEq, Repr

/-- A context (R159, R160, R255). `rdet` holds what RDET says of each section whose start failed (R267). `stall` holds the deadlock detector's counts (R180): die d's count under d, and the ck for
which die d has been quiet under 6 + d. -/
structure Ctx where
  id : Nat
  prio : Nat
  cols : Nat
  tagfmt : BitVec 24
  ceiling : Nat
  erate : Nat
  agewin : Nat
  dlwin : Nat
  part : BitVec 384
  owned : BitVec 384
  groups : List (Nat × BitVec 384)
  excl : BitVec 256
  sects : List Section
  copies : List Copy
  edges : List (Nat × Nat)
  nodes : List Node
  lid : Word
  crec : Nat
  csig : Word
  tvec : Word
  tstart : Nat
  tend : Nat
  faults : Nat
  orph : Nat
  fkind : Nat
  fsect : Nat
  fck : Nat
  rdet : List (Nat × Nat)
  sealed : Bool
  empty : Bool
  aband : Bool
  phase : CtxPhase
  causes : List HaltCause
  pendSeals : List (Nat × Nat)
  dolz : Bool
  watch : Watch
  stall : List (Nat × Nat)
  saveBase : List (Nat × Nat)
  queue : Option (Nat × Nat)
deriving DecidableEq, Repr

/-- A launch record waiting for the firmware scheduler (R173, R278, R358): the addresses of its four runs of 64 bytes, which in a sparse
object may lie in two blocks (R203), the launching context and its partition if any, whether that context has ended since (log 97), the cap
on its priority, and the user queue entry it came from. -/
structure LaunchReq where
  places : List Nat
  parent : Option Nat
  ended : Bool
  partMask : BitVec 384
  cap : Nat
  queue : Option (Nat × Nat)
deriving DecidableEq, Repr

/-- A command in an object's hub queue (R208, R238, R274); an ORRES names the control core that waits for it, and has a number of its own. -/
inductive HubOp where
  | orset (r : ObjRec)
  | orinv
  | ormov (dst : Nat)
  | shop
  | publ
  | orres (core first : Nat) (entries : List Word) (ask : Nat)
deriving DecidableEq, Repr

/-- A queued or performed command: its counter to post (R236), the waiting firing, how far it is, and for ORRES the accesses that
read an entry it replaced, as core, context and order (R241). -/
structure HubCmd where
  handle : Nat
  op : HubOp
  counter : Word
  ctx : Nat
  fid : Option Nat
  performed : Bool
  oldGen : Nat
  readers : List (Nat × Nat × Nat)
deriving DecidableEq, Repr

/-- A relocation in progress (R208): old and new base, its units and their bytes, the object's bytes, and the units copied. -/
structure Reloc where
  handle : Nat
  gen : Nat
  oldBase : Nat
  newBase : Nat
  unit : Nat
  units : Nat
  bytes : Nat
  next : Nat
  flipped : Bool
deriving DecidableEq, Repr

/-- A recent-tag table entry (R288, R340): bank, requester device (none: this one), tag, recorded result, and for another device's request
the flags that go back with it (R245). -/
structure TagEntry where
  bank : Nat
  dev : Option Nat
  tag : Nat
  result : Word
  ok : Bool
  flags : Nat
deriving DecidableEq, Repr

/-- An open ticket of a home hub (R341). -/
structure Ticket where
  hub : Nat
  idx : Nat
  dev : Nat
  core : Nat
  ctx : Nat
  handle : Nat
  block : Nat
deriving DecidableEq, Repr

/-- The lock state of a port (R335). -/
inductive PortState where
  | unlocked
  | locked
  | run
  | error
deriving DecidableEq, Repr

/-- The SPDM phase a port's session has reached (R334). -/
inductive SpdmPhase where
  | none
  | version
  | capabilities
  | algorithms
  | authenticated
  | exchanged
  | established
deriving DecidableEq, Repr

/-- A fabric port and its link (R331 to R336). Key generations are counts; KGEN is the count modulo 4. `forming`, `parts`,
`carried`, `credit` and `out` are the model's own: the bodies that wait for their flit group (R332), those received that make no whole
packet yet, the packets that end in flits not yet acknowledged, by SEQ, what each class may still send in this round (R214, R328), and the
flits sent; `keyId` numbers its session's keys, `peerLocked` is what the other end tells of its lock state, `asking` the place of the
HN7's own request of a bring-up whose response is awaited, and `failed` that the last bring-up has failed (R334). -/
structure Port where
  st : PortState
  peer : Nat
  attested : Nat
  enable : Bool
  spdm : SpdmPhase
  keys : Bool
  keyId : Nat
  txGen : Nat
  txOld : Option Nat
  txNew : Nat
  rxGen : Nat
  rxOld : Option Nat
  rxNew : Nat
  pendingUpdate : Bool
  txSeq : Nat
  rxSeq : Nat
  discardTo : Option Nat
  replay : List (BitVec 512)
  groups : Nat
  rxGroups : Nat
  rxOldGroups : Nat
  failRow : Nat
  retrains : List Nat
  peerLocked : Bool
  forming : List FlitBody
  parts : List FlitBody
  carried : List (Nat × Packet)
  credit : List Nat
  out : List (BitVec 512)
  asking : Option Nat
  failed : Bool
deriving DecidableEq, Repr

/-- A package link between dies (R325). -/
structure PkgLink where
  die : Nat
  hub : Nat
  failRow : Nat
  fenced : Bool
deriving DecidableEq, Repr

/-- A user queue's control block (R356). The model's own: the entries completed out of order, whether the queue has stopped until its next
doorbell, and since which ck the entry after LACC waits (R358). -/
structure UserQueue where
  q : Nat
  rjwhy : Nat
  lrej : BitVec 32
  slot : Nat
  prio : Nat
  pend : Bool
  size : Nat
  base : Nat
  dbell : BitVec 32
  lcmp : BitVec 32
  lacc : BitVec 32
  completed : List Nat
  stopped : Bool
  since : Nat
deriving DecidableEq, Repr

/-- An admitted reserved stream (R213, R361): its id stands in its entries of the slot tables of its links (log 27). -/
structure Stream where
  ctx : Nat
  core : Nat
  id : Nat
  target : Word
  links : List Nat
  entries : List Nat
  byLid : Option Nat
deriving DecidableEq, Repr

/-- The services of the management complex (R360). -/
inductive Service where
  | contexts
  | pages
  | streams
  | faults
  | routes
  | nearMemory
  | dolz
deriving DecidableEq, Repr

/-- What posts a counter on the HN7's own account (R254): a command, by its object's handle, or a launch, by LID. -/
inductive Poster where
  | command (handle : Nat)
  | launch (lid : Word)
deriving DecidableEq, Repr

/-- The reason of a stop line: a code of R308, or a stop of `break fault` (R321). -/
inductive LineReason where
  | stop (code : Nat)
  | fault
  | preemption
  | resume
deriving DecidableEq, Repr

/-- What management and the debugger record (R30, R82, R193, R254, R327, R353); a `dolz` stop line names context, core, engine, slot,
colour, tag, reason and ck. -/
inductive MgmtEvent where
  | stray (w0 w1 : Word)
  | counterOverflow (handle idx : Nat) (by_ : Poster)
  | stopLine (ctx core e slot col : Nat) (tag : BitVec 32) (reason : LineReason) (ck : Nat)
  | loaded (lid : Word) (crec : Nat) (csig : Word)
  | fabricError (dst : Nat)
  | residency (handle block : Nat)
  | halted (ctx : Nat)
  | portError (port : Nat)
deriving DecidableEq, Repr

/-- How far boot has come (R362). -/
inductive BootPhase where
  | atReset
  | running
  | recovery
deriving DecidableEq, Repr

/-- A colour on its way back to its pool (R167, R169), not before ck `due`. -/
structure ColourBack where
  core : Nat
  ctx : Nat
  col : Nat
  due : Nat
deriving DecidableEq, Repr

/-- Boot state (R362): the flash slots, the rollback counter, the running version, the measurement registers. -/
structure Boot where
  phase : BootPhase
  slots : List (Nat × FlashImage)
  rollback : Nat
  version : Nat
  started : Bool
  measures : List (BitVec 256)
deriving DecidableEq, Repr

/-- Tables, Drawers, tokens and tiles (R12 to R30). `issued` is the ck of each engine's last issue (R23), `asked`
that of its last colour request (R166), `seqs` each engine's count of tokens sent (R15), `foreign` the groups whose router-table
entry another context owns, by context and group (R215; log 55). -/
structure Flow where
  slots : List Slot
  dests : List Dest
  drawers : List Drawer
  ready : List Ready
  cwait : List Ready
  net : List NetTok
  ingress : List NetTok
  firings : List Firing
  allocs : List Alloc
  reqs : List AllocReq
  returns : List ColourBack
  seals : List (Nat × Nat × Nat)
  holder : List (Nat × Nat)
  matchSeq : Nat
  issued : List (Nat × Eng × Nat)
  seqs : List (Nat × Eng × Nat)
  asked : List (Nat × Eng × Nat)
  foreign : List (Nat × Nat)
deriving DecidableEq, Repr

/-- Objects and the memory system (R199 to R211, R286 to R289, R337 to R348): `table` is the base of the object-record table (R201),
`rows` the ck in which each core's replayer last moved a row (R252). -/
structure MemSys where
  objs : List (Nat × ObjRec)
  table : Nat
  objCount : Nat
  absentPages : List Nat
  inflight : List ((Nat × Nat) × Nat)
  hub : List HubCmd
  relocs : List Reloc
  chest : List Chest
  bench : List Bench
  serials : List (Nat × Nat)
  tags : List TagEntry
  retires : List (Nat × Nat)
  tickets : List Ticket
  rows : List (Nat × Nat)
deriving DecidableEq, Repr

/-- Fabric and package links (R323 to R336). `refused` holds this device's tokens that another has refused and those behind them, `replays` the
REPLAY notices that another has refused (R345), and `refusing` the tokens that this device has refused and that have not come again (R293). -/
structure Fabric where
  ports : List Port
  routes : List (Nat × BitVec 32)
  routePend : List (Nat × BitVec 32)
  unacked : List (Nat × Nat)
  packets : List Packet
  refused : List NetTok
  replays : List HeldReplay
  refusing : List Refused
  pkg : List PkgLink
  promo : List (Nat × Nat)
deriving DecidableEq, Repr

/-- Host queues, management and launches (R354 to R361); `loaded` counts the launch records that the loader has written (R82), `backing` is the
content that management keeps for absent blocks (R350), and `fenced` the services that have failed (R360). -/
structure HostSide where
  queues : List UserQueue
  bar2 : Nat
  requests : List (Nat × Option (Nat × Nat))
  launches : List LaunchReq
  ctxLaunches : List (Nat × LaunchReq)
  streams : List Stream
  log : List MgmtEvent
  loaded : Nat
  backing : List Backing
  fenced : List Service
deriving DecidableEq, Repr

/-- Which agent moves next (log 1): a control core, an engine's issue, one ck of time, the oldest store of a store buffer leaving it, or
an event of the table; or what comes from outside the table: the driver's load of a context's router-table entry for a group, with whether
another context owns it (log 55); memory performing the next n elements of a tile access (R223); `break fault` for a context (R321);
management's object table, its base and record count, and a page of it present or absent (R201); a save store of a context that faults (R294); an
uncorrectable error in a Drawer or Chest entry of a context on a core (R282); a write to host memory, with whether it is poison (R301);
the fabric manager's device id (R326); what a port's other end tells of its lock (R335), and its response to this device's request of a
bring-up, none where it refuses (R334); management's service of an absent block at a free address (R353); and a service that fails (R360). -/
inductive Turn where
  | control (core : Nat)
  | issue (core : Nat) (eng : Eng)
  | tick
  | drain (core : Nat)
  | event (i : Instr)
  | router (ctx grp : Nat) (foreign : Bool)
  | cells (core ctx order n : Nat)
  | breakFault (ctx : Nat) (on : Bool)
  | objectTable (base count : Nat)
  | page (p : Nat) (present : Bool)
  | saveFault (ctx : Nat)
  | storageError (core ctx : Nat)
  | hostWrite (ctx : Nat) (poison : Bool)
  | deviceId (id : Nat)
  | peerLock (port : Nat) (locked : Bool)
  | spdmResponse (port : Nat) (m : Option SpdmMsg)
  | serve (handle block addr : Nat)
  | fence (v : Service)
deriving DecidableEq, Repr

/-- The state of the machine. `log` holds the writes of the step being made and is empty between steps; `sched`,
`firing`, `nextId`, `free`, `lastRun` and `cursor` are the model's own (log 2); control cores from `cursor` up have not yet
had their turn in this ck. -/
structure State where
  mem : Memory
  log : List Write
  ecc : List Nat
  ctls : List Ctl
  cores : List CoreCtx
  flow : Flow
  msys : MemSys
  ctxs : List Ctx
  fabric : Fabric
  host : HostSide
  boot : Boot
  devId : Nat
  ck : Nat
  sched : List Turn
  firing : Option Firing
  nextId : Nat
  free : Nat
  lastRun : Nat
  cursor : Nat
deriving DecidableEq, Repr

/-- Why the machine stops. -/
inductive Fault where
  /-- Raised by an operator's meaning when no firing is being issued. Safe: `step` calls an operator only for a firing it
  has chosen, because an operator runs only when its operands arrive as tokens (R9). -/
  | noFiring
  /-- Raised by a control-core step whose fetched word in an executable page is no control word. Safe: R60 and R61 say
  the scanner lets no such word into an executable page. -/
  | illegalControlWord (w : BitVec 32)
  /-- Raised by an issue whose slot holds a word that GLOAD would have rejected (R69). Safe: GLOAD writes no such word. -/
  | illegalOperatorWord (w : BitVec 32)
deriving DecidableEq, Repr

/-- Why an instruction has no meaning here. -/
inductive Refusal where
  /-- Raised by `exec` for a row not modelled yet. Safe: nothing is claimed of it. -/
  | notModelled (mnemonic : String)
deriving DecidableEq, Repr

/-- A control core that no context owns, as after reset (R85, R90; log 4). -/
def Ctl.reset (core : Nat) : Ctl :=
  { core := core, owner := none, run := .idle, regs := Vector.replicate 32 0, pc := 0, status := 4, cause := 0,
    epc := 0, tval := 0, tvec := 0, lstart := 0, lend := 0, lcount := 0, seq := 0, exec := 0, rq := [],
    lastTile := none, sbuf := [], cmps := List.replicate 4 (false, 0), seals := [], trapos := [], stallDie := 0,
    wait := .none, raised := (0, 0), brkPassed := false, steps := none }

/-- Accumulator set at context creation (R119). -/
def AccSet.reset : AccSet := { elems := [], sigma := [], pmark := false }

/-- The weights of the four classes, request, reply, token and bulk, on a link (R214). -/
def vcWeights : List Nat := [4, 4, 6, 2]

/-- Where the object-record table stands until management configures it (R201; log 4): the top 2 GiB of HBM stack 7. -/
def tableBase : Nat := 7 * 2^36 + 64000000000 - 2^31

/-- A port after reset (R335): unlocked, no session, no keys. -/
def Port.reset : Port :=
  { st := .unlocked, peer := 0, attested := 0, enable := false, spdm := .none, keys := false, keyId := 0, txGen := 0,
    txOld := none, txNew := 0, rxGen := 0, rxOld := none, rxNew := 0, pendingUpdate := false, txSeq := 0, rxSeq := 0,
    discardTo := none, replay := [], groups := 0, rxGroups := 0, rxOldGroups := 0, failRow := 0, retrains := [], peerLocked := false,
    forming := [], parts := [], carried := [], credit := vcWeights, out := [], asking := none, failed := false }

/-- `dolz` of a context it is not attached to. -/
def Watch.reset : Watch := { onFault := false, held := none, away := 0, savedAt := none, due := false, last := (0, 0) }

/-- No slot loaded, every entry in its reset state, no token anywhere (R18, R22, R66). -/
def Flow.reset : Flow :=
  { slots := [], dests := [], drawers := [], ready := [], cwait := [], net := [], ingress := [], firings := [],
    allocs := [], reqs := [], returns := [], seals := [], holder := [], matchSeq := 0,
    issued := [], seqs := [], asked := [], foreign := [] }

/-- No record valid, nothing outstanding (R199, R286, R288, R341, R343). The table size and present pages are log 4. -/
def MemSys.reset : MemSys :=
  { objs := [], table := tableBase, objCount := 16777216, absentPages := [], inflight := [], hub := [], relocs := [], chest := [],
    bench := [], serials := [], tags := [], retires := [], tickets := [], rows := [] }

/-- The machine right after reset: no context, no program, memory with nothing listed, boot not yet run (R362). -/
def State.reset : State :=
  { mem := [], log := [], ecc := [], ctls := [], cores := [], flow := Flow.reset, msys := MemSys.reset, ctxs := [],
    fabric := { ports := List.replicate 18 Port.reset, routes := [], routePend := [], unacked := [], packets := [],
                refused := [], replays := [], refusing := [], pkg := [], promo := [] },
    host := { queues := [], bar2 := 0, requests := [], launches := [], ctxLaunches := [], streams := [], log := [], loaded := 0,
              backing := [], fenced := [] },
    boot := { phase := .atReset, slots := [], rollback := 0, version := 0, started := false, measures := [0, 0, 0] },
    devId := 0, ck := 0, sched := [], firing := none, nextId := 0, free := 0, lastRun := 0, cursor := 0 }

end Sys2Proof.Machine
end

