-- ==== Sys2Proof/Machine/Mem.lean ====
section
/-! DEFINITION. Memory as one canonical list (log 3): reading and writing runs of bytes, and little-endian words (R33). -/

namespace Sys2Proof.Machine

/-- The canonical form: addresses strictly rising, no byte 0. -/
def Memory.wf : Memory → Bool
  | [] => true
  | [(_, v)] => v != 0
  | (a, v) :: (b, w) :: t => v != 0 && decide (a < b) && Memory.wf ((b, w) :: t)

/-- The byte at an address; an unlisted address reads 0 (log 3). -/
def Memory.byte : Memory → Nat → Byte
  | [], _ => 0
  | (k, v) :: t, a => if k = a then v else Memory.byte t a

/-- The cells below an address. -/
def Memory.below : Memory → Nat → Memory
  | [], _ => []
  | (k, v) :: t, a => if k < a then (k, v) :: Memory.below t a else []

/-- The cells at or above an address. -/
def Memory.above : Memory → Nat → Memory
  | [], _ => []
  | (k, v) :: t, a => if k < a then Memory.above t a else (k, v) :: t

/-- The cells that a run of bytes from an address makes: its nonzero bytes. -/
def Memory.cells : Nat → List Byte → Memory
  | _, [] => []
  | a, b :: t => if b = 0 then Memory.cells (a + 1) t else (a, b) :: Memory.cells (a + 1) t

/-- Replace the bytes from an address. -/
def Memory.write (m : Memory) (a : Nat) (bs : List Byte) : Memory :=
  m.below a ++ (Memory.cells a bs ++ m.above (a + bs.length))

/-- n bytes of cells that start at or above a. -/
def Memory.take : Memory → Nat → Nat → List Byte
  | _, _, 0 => []
  | [], a, n + 1 => 0 :: Memory.take [] (a + 1) n
  | (k, v) :: t, a, n + 1 =>
    if k = a then v :: Memory.take t (a + 1) n else 0 :: Memory.take ((k, v) :: t) (a + 1) n

/-- The n bytes from an address. -/
def Memory.bytes (m : Memory) (a n : Nat) : List Byte := Memory.take (m.above a) a n

/-- The bytes from a, with a later write laid over them. -/
def overlay (a : Nat) (bs : List Byte) (w : Write) : List Byte :=
  if w.addr + w.bytes.length ≤ a ∨ a + bs.length ≤ w.addr then bs
  else if a ≤ w.addr then
    bs.take (w.addr - a) ++ (w.bytes.take (bs.length - (w.addr - a)) ++ bs.drop (w.addr - a + w.bytes.length))
  else
    (w.bytes.drop (a - w.addr)).take bs.length ++ bs.drop (w.addr + w.bytes.length - a)

/-- The n bytes from an address as the step in progress sees them: memory under the writes it has made. -/
def State.read (s : State) (a n : Nat) : List Byte := s.log.foldl (overlay a) (s.mem.bytes a n)

/-- One byte of memory between steps. -/
def State.byteAt (s : State) (a : Nat) : Byte := s.mem.byte a

/-- Record a write of the step in progress. -/
def State.write (s : State) (a : Nat) (bs : List Byte) : State := { s with log := s.log ++ [⟨a, bs⟩] }

/-- The unsigned value of bytes in little-endian order (R33). -/
def leNat : List Byte → Nat
  | [] => 0
  | b :: t => b.toNat + 256 * leNat t

/-- The n low bytes of a number in little-endian order (R33). -/
def leBytes : Nat → Nat → List Byte
  | 0, _ => []
  | n + 1, v => BitVec.ofNat 8 v :: leBytes n (v / 256)

/-- A 64-bit word of memory, little-endian. -/
def State.readWord (s : State) (a : Nat) : Word := BitVec.ofNat 64 (leNat (s.read a 8))

/-- A number read from n bytes of memory, little-endian. -/
def State.readNat (s : State) (a n : Nat) : Nat := leNat (s.read a n)

/-- Write a 64-bit word, little-endian. -/
def State.writeWord (s : State) (a : Nat) (w : Word) : State := s.write a (leBytes 8 w.toNat)

/-- Where byte a of core c's control-core address space lies in memory's keys (log 3). -/
def coreKey (c a : Nat) : Nat := (c + 1) * 281474976710656 + a

/-- First control-core address of scratchpad (R86). -/
def scratchBase : Nat := 0x01000000

/-- Bytes of scratchpad (R9). -/
def scratchSize : Nat := 2359296

/-- Bytes of a core's own SRAM (R86). -/
def sramSize : Nat := 131072

/-- Where scratchpad byte a of core c lies in memory's keys. -/
def scratchKey (c a : Nat) : Nat := coreKey c (scratchBase + a)

/-- Whether any of n bytes from an address carries an uncorrectable-ECC mark (R131, R282). -/
def State.eccHit (s : State) (a n : Nat) : Bool := s.ecc.any fun k => decide (a ≤ k ∧ k < a + n)

/-- Apply the writes of a step to memory, in order. -/
def applyWrites (m : Memory) (ws : List Write) : Memory := ws.foldl (fun m w => m.write w.addr w.bytes) m

/-- Whether a byte lies inside a write. -/
def Write.covers (w : Write) (k : Nat) : Bool := decide (w.addr ≤ k ∧ k < w.addr + w.bytes.length)

/-- End a step that began in s and has come to t: its writes go to memory, which changes in no other way, and a
written byte loses its uncorrectable-ECC mark (log 12). -/
def finish (s t : State) : Host.Outcome State Fault Refusal :=
  .next { t with
    mem := applyWrites s.mem t.log
    ecc := t.ecc.filter fun k => !(t.log.any fun w => w.covers k)
    log := [] }

/-- n undefined bytes, from State's counter of free values (log 7). -/
def freeBytes (from_ : Nat) : Nat → List Byte
  | 0 => []
  | n + 1 => Config.freeByte from_ :: freeBytes (from_ + 1) n

/-- Make n bytes from an address undefined (R12). -/
def State.havoc (s : State) (a n : Nat) : State := { s.write a (freeBytes s.free n) with free := s.free + n }

/-- Whether n bytes from an address lie in one assigned range of device memory (R198). -/
def assigned (a n : Nat) : Bool :=
  let inside (lo size : Nat) : Bool := decide (lo ≤ a ∧ a + n ≤ lo + size)
  (decide (a / 2^36 < 8) && inside (a / 2^36 * 2^36) 64000000000)
  || inside 0x800000000000 (2 * 2^25) && (decide (n = 0) || decide ((a - 0x800000000000) / 2^25 = (a + n - 1 - 0x800000000000) / 2^25))
  || inside 0x800100000000 (6 * 2^23) && (decide (n = 0) || decide ((a - 0x800100000000) / 2^23 = (a + n - 1 - 0x800100000000) / 2^23))
  || inside 0x800200000000 (24 * 2^21) && (decide (n = 0) || decide ((a - 0x800200000000) / 2^21 = (a + n - 1 - 0x800200000000) / 2^21))
  || inside 0x800300000000 (96 * 2^20) && (decide (n = 0) || decide ((a - 0x800300000000) / 2^20 = (a + n - 1 - 0x800300000000) / 2^20))

/-- A memory of the package (R194): HBM stack, hub bank, die bank, cluster bank or quad bank, by number. -/
inductive Bank where
  | hbm (s : Nat)
  | hub (h : Nat)
  | die (d : Nat)
  | cluster (k : Nat)
  | quad (q : Nat)
deriving DecidableEq, Repr

/-- The memory that a device address lies in (R198). -/
def bankOf (a : Nat) : Option Bank :=
  if assigned a 1 = false then none
  else if a < 0x800000000000 then some (.hbm (a / 2^36))
  else if a < 0x800100000000 then some (.hub ((a - 0x800000000000) / 2^25))
  else if a < 0x800200000000 then some (.die ((a - 0x800100000000) / 2^23))
  else if a < 0x800300000000 then some (.cluster ((a - 0x800200000000) / 2^21))
  else some (.quad ((a - 0x800300000000) / 2^20))

/-- A number for each memory, used as the key of its recent-tag table (R288). -/
def Bank.code : Bank → Nat
  | .hbm s => s
  | .hub h => 8 + h
  | .die d => 10 + d
  | .cluster k => 16 + k
  | .quad q => 40 + q

end Sys2Proof.Machine
end

