-- ==== Sys2Proof/Machine/Ops.lean ====
section
/-! DEFINITION. The named operations over State: records by key, the registers of a control core, its address space
(R86 to R88), taking a trap and returning from one (R93, R94, R114), the end check (R106), and contexts. -/

namespace Sys2Proof.Machine

/-- Replace the first element that satisfies p, or append. -/
def upsert {α : Type} (p : α → Bool) (x : α) : List α → List α
  | [] => [x]
  | y :: t => if p y then x :: t else y :: upsert p x t

/-- Change every element that satisfies p. -/
def modify {α : Type} (p : α → Bool) (f : α → α) (l : List α) : List α := l.map fun x => if p x then f x else x

/-- Remove the n-th element. -/
def removeAt {α : Type} (n : Nat) (l : List α) : List α := l.eraseIdx n

/-- Bit i of a word set to b. -/
def setBit (w : Word) (i : Nat) (b : Bool) : Word :=
  if b then w ||| BitVec.twoPow 64 i else w &&& ~~~(BitVec.twoPow 64 i)

/-- Sign extension to 64 bits (R55). -/
def sext {n : Nat} (x : BitVec n) : Word := x.signExtend 64

/-- Whether core c is in a set of cores. -/
def inMask (m : BitVec 384) (c : Nat) : Bool := m.getLsbD c

/-- The cores of a set, ascending. -/
def maskCores (m : BitVec 384) : List Nat := (List.range 384).filter (inMask m)

/-! ### Records by key -/

/-- The control core of a core. -/
def State.ctl (s : State) (core : Nat) : Ctl := (s.ctls.find? fun c => c.core == core).getD (Ctl.reset core)

/-- Put a control core back. -/
def State.setCtl (s : State) (c : Ctl) : State := { s with ctls := upsert (fun d => d.core == c.core) c s.ctls }

/-- A context by id. -/
def State.ctx? (s : State) (id : Nat) : Option Ctx := s.ctxs.find? fun x => x.id == id

/-- Change a context. -/
def State.modCtx (s : State) (id : Nat) (f : Ctx → Ctx) : State :=
  { s with ctxs := modify (fun x => x.id == id) f s.ctxs }

/-- A context's part on a core. -/
def State.cctx? (s : State) (core ctx : Nat) : Option CoreCtx :=
  s.cores.find? fun x => x.core == core && x.ctx == ctx

/-- Change a context's part on a core. -/
def State.modCctx (s : State) (core ctx : Nat) (f : CoreCtx → CoreCtx) : State :=
  { s with cores := modify (fun x => x.core == core && x.ctx == ctx) f s.cores }

/-- Change the tables, Drawers, tokens and tiles. -/
def State.modFlow (s : State) (f : Flow → Flow) : State := { s with flow := f s.flow }

/-- Change the memory system. -/
def State.modMsys (s : State) (f : MemSys → MemSys) : State := { s with msys := f s.msys }

/-- Change the host's side. -/
def State.modHost (s : State) (f : HostSide → HostSide) : State := { s with host := f s.host }

/-- Change the fabric. -/
def State.modFabric (s : State) (f : Fabric → Fabric) : State := { s with fabric := f s.fabric }

/-- The packets of this device's that a destination has not acknowledged (R330). -/
def State.unacked (s : State) (dev : Nat) : Nat := ((s.fabric.unacked.find? fun q => q.1 == dev).map (·.2)).getD 0

/-- Whether a packet counts as unacknowledged (R330): neither an acknowledgement nor a refused token that is sent again, which counts
already. -/
def PacketBody.isCounted : PacketBody → Bool
  | .acked _ => false
  | .token nt => nt.fromDev.isNone
  | _ => true

/-- A packet of this device's joins those that wait for the fabric (R327). -/
def State.putPacket (s : State) (core ctx dev cls : Nat) (poison : Bool) (b : PacketBody) : State :=
  s.modFabric fun g => { g with
    packets := g.packets ++ [{ srcDev := s.devId, srcCore := core, ctx := ctx, dstDev := dev, hops := 0, cls := cls, poison := poison,
                               body := b, since := s.ck, promoted := false }] }

/-- A packet of this device's leaves for the fabric (R327, R330). -/
def State.sendPacket (s : State) (core ctx dev cls : Nat) (poison : Bool) (b : PacketBody) : State :=
  (s.putPacket core ctx dev cls poison b).modFabric fun g => { g with
    unacked := if dev ≠ s.devId ∧ b.isCounted = true then upsert (fun q => q.1 == dev) (dev, s.unacked dev + 1) g.unacked else g.unacked }

/-- Acknowledged packets of a destination (R330): when none is left, a route entry that waits comes into use. -/
def State.acknowledge (s : State) (dev count : Nat) : State :=
  let n := s.unacked dev - count
  let s := s.modFabric fun g => { g with unacked := (g.unacked.filter fun q => q.1 != dev) ++ (if n = 0 then [] else [(dev, n)]) }
  if n = 0 then
    match s.fabric.routePend.find? fun q => q.1 == dev with
    | some q => s.modFabric fun g => { g with
        routes := upsert (fun r => r.1 == dev) q g.routes
        routePend := g.routePend.filter fun r => r.1 != dev }
    | none => s
  else s

/-- Whether a service of the management complex runs: a failing one is fenced (R360). -/
def State.serves (s : State) (v : Service) : Bool := !s.host.fenced.contains v

/-- A service fails and is fenced (R360). -/
def State.fenceService (s : State) (v : Service) : State :=
  if s.serves v then s.modHost fun h => { h with fenced := h.fenced ++ [v] } else s

/-- Management records an event. -/
def State.record (s : State) (e : MgmtEvent) : State := s.modHost fun h => { h with log := h.log ++ [e] }

/-- The context that owns a core's control core (R160). -/
def State.owner (s : State) (core : Nat) : Option Nat := (s.ctl core).owner

/-- A firing by its number. -/
def State.firing? (s : State) (id : Nat) : Option Firing := s.flow.firings.find? fun f => f.id == id

/-- Change a firing. -/
def State.modFiring (s : State) (id : Nat) (f : Firing → Firing) : State :=
  s.modFlow fun w => { w with firings := modify (fun x => x.id == id) f w.firings }

/-- A Chest entry by its place in issue order. -/
def State.chest? (s : State) (core ctx order : Nat) : Option Chest :=
  s.msys.chest.find? fun e => e.core == core && e.ctx == ctx && e.order == order

/-- Change a Chest entry. -/
def State.modChest (s : State) (core ctx order : Nat) (f : Chest → Chest) : State :=
  s.modMsys fun m => { m with chest := modify (fun e => e.core == core && e.ctx == ctx && e.order == order) f m.chest }

/-- The section of a context by id. -/
def Ctx.section? (x : Ctx) (sect : Nat) : Option Section := x.sects.find? fun t => t.id == sect

/-- Change a section of a context. -/
def Ctx.modSection (x : Ctx) (sect : Nat) (f : Section → Section) : Ctx :=
  { x with sects := modify (fun t => t.id == sect) f x.sects }

/-- Whether a context's halt line is low: it is resident. -/
def State.lineLow (s : State) (ctx : Nat) : Bool :=
  match s.ctx? ctx with
  | some x => x.phase == .resident
  | none => false

/-- Whether `dolz` holds a context at a stop (R193, R321). -/
def State.held (s : State) (ctx : Nat) : Bool := (s.ctx? ctx).any fun x => x.watch.held.isSome

/-- Whether a context runs: its halt line is low, and `dolz` does not hold it. -/
def State.runs (s : State) (ctx : Nat) : Bool := s.lineLow ctx && !s.held ctx

/-- The loaded slot of a context on a core. -/
def State.slot? (s : State) (core ctx : Nat) (eng : Eng) (slot : Nat) : Option Slot :=
  s.flow.slots.find? fun t => t.core == core && t.ctx == ctx && t.eng == eng && t.slot == slot

/-- The code of an engine (R66). -/
def engCode : Eng → Nat
  | .m => 0
  | .v => 1
  | .s => 2
  | .c => 3

/-- The engine of a code (R66). -/
def engOfCode : Nat → Eng
  | 0 => .m
  | 1 => .v
  | 2 => .s
  | _ => .c

/-! ### Registers of a control core -/

/-- A general register; g0 reads 0 (R83). -/
def Ctl.reg (c : Ctl) (r : Reg) : Word := if r = 0 then 0 else c.regs[r.toNat]'(r.isLt)

/-- Write a general register; a write to g0 is discarded (R83). -/
def Ctl.setReg (c : Ctl) (r : Reg) (v : Word) : Ctl :=
  if r = 0 then c else { c with regs := c.regs.set r.toNat v r.isLt }

/-- Register r + i of a group (R56). -/
def groupReg (r : Reg) (i : Nat) : Reg := r + BitVec.ofNat 5 i

/-- Write a group of registers from one instruction (R83). -/
def Ctl.setGroup (c : Ctl) (r : Reg) : List Word → Ctl
  | [] => c
  | v :: t => (c.setReg r v).setGroup (r + 1) t

/-- The values of a group of n registers. -/
def Ctl.group (c : Ctl) (r : Reg) (n : Nat) : List Word := (List.range n).map fun i => c.reg (groupReg r i)

/-- k.status.PRIV (R90). -/
def Ctl.priv (c : Ctl) : Bool := c.status.getLsbD 0

/-- k.status.IE (R90). -/
def Ctl.ie (c : Ctl) : Bool := c.status.getLsbD 2

/-- k.status.HND (R90). -/
def Ctl.hnd (c : Ctl) : Bool := c.status.getLsbD 4

/-- k.status.LACT (R90). -/
def Ctl.lact (c : Ctl) : Bool := c.status.getLsbD 5

/-- k.status.EVT (R90). -/
def Ctl.evt (c : Ctl) : Bool := c.status.getLsbD 7

/-- Whether any PEND bit is 1 (R90). -/
def Ctl.pend (c : Ctl) : Bool := c.status.getLsbD 32 || c.status.getLsbD 33 || c.status.getLsbD 34

/-- k.status as software reads it: RQN is 1 while the receive queue holds a token (R90). -/
def Ctl.statusRead (c : Ctl) : Word := setBit c.status 8 (!c.rq.isEmpty)

/-- Set LACT (R90). -/
def Ctl.setLact (c : Ctl) (b : Bool) : Ctl := { c with status := setBit c.status 5 b }

/-- Bits that the HN7 sets in a ck, noted with those it has set in the same ck (R45, R108). -/
def noteRaised (ck : Nat) (b : Word) (r : Nat × Word) : Nat × Word := if r.1 = ck then (ck, r.2 ||| b) else (ck, b)

/-- The bits noted for a ck: a write in that ck does not clear them (R45, R108). -/
def raisedIn (ck : Nat) (r : Nat × Word) : Word := if r.1 = ck then r.2 else 0

/-- Make an asynchronous cause pending in a ck: code 16, 17 or 18 (R90). -/
def Ctl.setPend (c : Ctl) (ck code : Nat) : Ctl :=
  { c with status := setBit c.status (code + 16) true, raised := noteRaised ck (BitVec.twoPow 64 (code + 16)) c.raised }

/-- A waiting instruction is abandoned: it has had no effect, and a single-step of it is still owed (R93, R95, R306). -/
def Ctl.abandon (c : Ctl) : Ctl :=
  { c with wait := .none, steps := if c.wait = .none then c.steps else c.steps.map (· + 1) }

/-- A word with bits [1:0] read as 0 (R89). -/
def wordAligned (w : Word) : Word := w &&& ~~~(3 : Word)

/-! ### Traps -/

/-- Take a trap (R93): the cause, epc and trap value are saved, the status bits move to their saved places, and the pc
goes to k.tvec. -/
def Ctl.trap (c : Ctl) (async : Bool) (code : Nat) (epc tval : Word) : Ctl :=
  let st := c.status
  let st := setBit st 1 (c.status.getLsbD 0)
  let st := setBit st 0 true
  let st := setBit st 3 (c.status.getLsbD 2)
  let st := setBit st 2 false
  let st := setBit st 6 (c.status.getLsbD 5)
  let st := setBit st 5 false
  let st := setBit st 4 true
  let st := if async then setBit st (code + 16) false else st
  { c with
    epc := wordAligned epc
    tval := tval
    cause := setBit (BitVec.ofNat 64 code) 63 async
    status := st
    pc := c.tvec
    wait := .none
    brkPassed := false
    steps := if async then c.abandon.steps else c.steps }

/-- Return from a trap (R114 ERET). -/
def Ctl.eret (c : Ctl) : Ctl :=
  let st := setBit c.status 0 (c.status.getLsbD 1)
  let st := setBit st 2 (c.status.getLsbD 3)
  let st := setBit st 5 (c.status.getLsbD 6)
  let st := setBit st 4 false
  { c with pc := c.epc, status := st }

/-- The 64-byte stop record of an engine (R308). -/
structure StopInfo where
  ck : Nat := 0
  pc : Nat := 0
  handle : Nat := 0
  block : Nat := 0
  gen : Nat := 0
  cont : Nat := 0
  prog : Nat := 0
  tag : Nat := 0
  sect : Nat := 0
  fkind : Nat := 0
  reason : Nat := 0
  ctx : Nat := 0
  col : Nat := 0
  slot : Nat := 0
  core : Nat := 0
  e : Nat := 0
  valid : Bool := false

/-- The record's bits (R308). -/
def StopInfo.word (r : StopInfo) : BitVec 512 :=
  BitVec.ofNat 512 (r.valid.toNat + r.e * 2^165 + r.core % 2^9 * 2^168 + r.slot % 2^9 * 2^177 + r.col % 2^6 * 2^186
    + r.ctx % 2^8 * 2^192 + r.reason * 2^200 + r.fkind * 2^208 + r.sect % 2^8 * 2^216 + r.tag % 2^32 * 2^224
    + r.prog % 2^32 * 2^256 + r.cont % 2^13 * 2^299 + r.gen % 2^16 * 2^312 + r.block % 2^32 * 2^328
    + r.handle % 2^24 * 2^360 + r.pc % 2^64 * 2^384 + r.ck % 2^64 * 2^448)

/-- The device address of a core's save object (R291), if the context has one. -/
def State.saveBase? (s : State) (ctx core : Nat) : Option Nat :=
  match s.ctx? ctx with
  | some x => (x.saveBase.find? fun p => p.1 == core).map (·.2)
  | none => none

/-- Write a stop record at offset 64 * E of the save object's header (R285, R308). -/
def State.writeStop (s : State) (ctx core e : Nat) (rec_ : BitVec 512) : State :=
  match s.saveBase? ctx core with
  | some a => s.write (a + 64 * e) (leBytes 64 rec_.toNat)
  | none => s

/-- Stop an engine for a context with a reason and record (R308). -/
def State.addStop (s : State) (core ctx : Nat) (st : Stop) : State :=
  s.modCctx core ctx fun x => { x with stops := x.stops ++ [st] }

/-- The running time of a context that a stop line gives: since its creation, without the time held or saved (R193, R321). -/
def Ctx.runTime (x : Ctx) (ck : Nat) : Nat := ck - x.tstart - x.watch.away

/-- `dolz` holds a context from now on (R193; log 65); one that it holds already stays held. -/
def Ctx.hold (x : Ctx) (ck : Nat) : Ctx := { x with watch := { x.watch with held := x.watch.held.or (some ck) } }

/-- `dolz` receives a stop of a context that it is attached to, and holds the context from the end of the step (R193, R304, R321). -/
def State.stopLine (s : State) (ctx core e slot col : Nat) (tag : BitVec 32) (reason : LineReason) : State :=
  match s.ctx? ctx with
  | some x =>
    if x.dolz then
      (s.record (.stopLine ctx core e slot col tag reason (x.runTime s.ck))).modCtx ctx fun x => x.hold s.ck
    else s
  | none => s

/-- A context becomes lost (R302): its halt line stays up; CONTEXT_LOST contains it. -/
def State.lose (s : State) (ctx : Nat) : State := s.modCtx ctx fun x => { x with phase := .lost }

/-- The word offset of a control core's address from the first word of its `.ctl` code, which stands from 0x1000 (R193, R256, R319). -/
def ctlWord (pc : Nat) : Nat := (pc - 0x1000) / 4

/-- Stop the control core with a reason and write its stop record (R94, R285, R308); its stop line gives the word offset of the pc as its slot
(R193). -/
def State.stopCtl (s : State) (c : Ctl) (reason fkind : Nat) : State :=
  let s := s.setCtl { c with run := .stopped reason }
  match c.owner with
  | none => s
  | some ctx =>
    let s := if reason = 6 then s else s.stopLine ctx c.core 3 (ctlWord c.pc.toNat) 0 0 (.stop reason)
    s.writeStop ctx c.core 3 (StopInfo.word { ck := s.ck, pc := c.pc.toNat, reason := reason, fkind := fkind, ctx := ctx,
                                              core := c.core, e := 3, valid := true })

/-- Whether the debugger is attached to the context that owns a control core (R317). -/
def State.debugged (s : State) (c : Ctl) : Bool :=
  match c.owner with
  | some ctx => ((s.ctx? ctx).map (·.dolz)).getD false
  | none => false

/-- Whether `dolz` holds the context that owns a control core (R193). -/
def State.ctlHeld (s : State) (c : Ctl) : Bool := c.owner.any s.held

/-- Whether a wait of a control core may end now: the core runs, and `dolz` does not hold its context (R85, R193). -/
def State.waitGoes (s : State) (c : Ctl) : Bool := c.run == .running && !s.ctlHeld c

/-- Raise a synchronous cause (R93, R94): it is taken, or while HND is 1 it is a double trap that stops the core and loses
the context. -/
def State.syncTrap (s : State) (c : Ctl) (code : Nat) (epc tval : Word) : State :=
  if c.hnd then
    let s := s.stopCtl c 6 20
    match c.owner with
    | some ctx => s.lose ctx
    | none => s
  else s.setCtl (c.trap false code epc tval)

/-- An instruction of the running control core raises a synchronous cause and has no effect (R93, R96). -/
def trapAt (s : State) (c : Ctl) (code : Nat) (tval : Word) : Host.Outcome State Fault Refusal :=
  finish s (s.syncTrap c code c.pc tval)

/-! ### Completing an instruction -/

/-- The control core whose instruction is running: the one `step` chose last. -/
def State.running (s : State) : Ctl := s.ctl s.lastRun

/-- The end check after an instruction at e has completed without a taken branch (R106): `lend` is k.lend when it was
fetched. -/
def endCheck (lend e : Word) (c : Ctl) : Ctl :=
  if c.lact = true ∧ e = lend then
    if 1 < c.lcount.toNat then { c with lcount := c.lcount - 1, pc := c.lstart }
    else ({ c with lcount := 0, pc := e + 4 }).setLact false
  else c

/-- The instruction fetched by c0 completes with its effect in c: the pc moves on and the end check follows (R106). -/
def Ctl.advance (c0 c : Ctl) : Ctl := endCheck c0.lend c0.pc { c with pc := c0.pc + 4, wait := .none }

/-- End a step in which the instruction of c0 completed with control core c and machine t. -/
def completeIn (s t : State) (c0 c : Ctl) : Host.Outcome State Fault Refusal := finish s (t.setCtl (c0.advance c))

/-- End a step in which the instruction of c0 completed and changed only its control core. -/
def complete (s : State) (c0 c : Ctl) : Host.Outcome State Fault Refusal := completeIn s s c0 c

/-- End a step in which the instruction of c0 took a branch: no end check (R106). -/
def jumpTo (s : State) (c : Ctl) (target : Word) : Host.Outcome State Fault Refusal := finish s (s.setCtl { c with pc := target })

/-- The instruction waits; its pc stays (R93). -/
def waitFor (s : State) (c : Ctl) (w : Wait) : Host.Outcome State Fault Refusal := finish s (s.setCtl { c with wait := w })

/-! ### The control core's address space (R86 to R88, R100) -/

/-- Whether a byte address is private SRAM. -/
def inSram (a : Nat) : Bool := decide (a < sramSize)

/-- Whether a byte address is scratchpad. -/
def inScratch (a : Nat) : Bool := decide (scratchBase ≤ a ∧ a < scratchBase + scratchSize)

/-- Whether the page of an address is executable (R60). -/
def Ctl.executable (c : Ctl) (a : Nat) : Bool := inSram a && c.exec.getLsbD (a / 4096)

/-- Whether a byte may be accessed: `store` for a store or an atomic. -/
def Ctl.allowed (c : Ctl) (store : Bool) (a : Nat) : Bool :=
  (inSram a || inScratch a) && !(store && c.executable a)

/-- The first byte of n from an address that may not be accessed. -/
def Ctl.firstBad (c : Ctl) (store : Bool) (a : Word) : Nat → Option Word
  | 0 => none
  | n + 1 =>
    match c.firstBad store a n with
    | some b => some b
    | none => if c.allowed store (a + BitVec.ofNat 64 n).toNat then none else some (a + BitVec.ofNat 64 n)

/-- The check of an access before any byte moves (R87): the cause and trap value, or none. Of an access that is both misaligned and
forbidden, the rule names no first cause: the model takes misaligned (log 60). -/
def Ctl.accessCheck (c : Ctl) (store : Bool) (a : Word) (n align : Nat) : Option (Nat × Word) :=
  if a.toNat % align ≠ 0 then some (4, a)
  else (c.firstBad store a n).map fun b => (if store then 6 else 5, b)

/-- The bytes a control core reads: memory under its buffered stores (R88). -/
def State.ctlRead (s : State) (c : Ctl) (a : Word) (n : Nat) : List Byte :=
  c.sbuf.foldl (overlay (coreKey c.core a.toNat)) (s.read (coreKey c.core a.toNat) n)

/-- The first address of n bytes whose 8-byte unit has an uncorrectable ECC error that no buffered store covers (R100). -/
def State.ctlPoison (s : State) (c : Ctl) (a : Word) (n : Nat) : Option Word :=
  let k := coreKey c.core a.toNat
  match (s.ecc.filter fun e => decide (k ≤ e ∧ e < k + n) && !(c.sbuf.any fun w => w.covers e)).min? with
  | some e => some (BitVec.ofNat 64 ((e - coreKey c.core 0) / 8 * 8))
  | none => none

/-- A control core's store of bytes: private SRAM at once, scratchpad into the store buffer (R88). -/
def State.ctlWrite (s : State) (c : Ctl) (a : Word) (bs : List Byte) : State × Ctl :=
  if inScratch a.toNat then (s, { c with sbuf := c.sbuf ++ [⟨coreKey c.core a.toNat, bs⟩] })
  else (s.write (coreKey c.core a.toNat) bs, c)

/-- Drain a store buffer to scratchpad (R88, R107). -/
def State.drain (s : State) (c : Ctl) : State × Ctl :=
  ({ s with log := s.log ++ c.sbuf }, { c with sbuf := [] })

/-- A control core's store of words, as 8-byte accesses in ascending address order, each of them single-copy atomic (R87; log 6). -/
def State.ctlWriteWords (s : State) (c : Ctl) (a : Word) : List Word → State × Ctl
  | [] => (s, c)
  | v :: vs =>
    let q := s.ctlWrite c a (leBytes 8 v.toNat)
    q.1.ctlWriteWords q.2 (a + 8) vs

/-- The oldest buffered store leaves for scratchpad (R88). -/
def State.drainOldest (s : State) (c : Ctl) : State × Ctl :=
  ({ s with log := s.log ++ c.sbuf.take 1 }, { c with sbuf := c.sbuf.tail })

/-- A little-endian number of bytes as a word. -/
def leWord (bs : List Byte) : Word := BitVec.ofNat 64 (leNat bs)

/-- The 32-bit word at a control-core address. -/
def State.fetchWord (s : State) (core : Nat) (a : Word) : BitVec 32 := BitVec.ofNat 32 (s.readNat (coreKey core a.toNat) 4)

end Sys2Proof.Machine
end

