-- ==== Sys2Proof/Machine/Alu.lean ====
section
/-! DEFINITION. Integer arithmetic, logic and moves of the control core (R96 to R99). -/

namespace Sys2Proof.Machine

/-- The mould of the group: gd gets a result, and the instruction completes (R97). -/
def writeReg (s : State) (d : Reg) (v : Word) : Host.Outcome State Fault Refusal :=
  complete s s.running (s.running.setReg d v)

/-- The register form: y is gb (R97). -/
def aluReg (s : State) (d a b : Reg) (f : Word → Word → Word) : Host.Outcome State Fault Refusal :=
  writeReg s d (f (s.running.reg a) (s.running.reg b))

/-- The immediate form: y is the sign-extended immediate (R97). -/
def aluImm (s : State) (d a : Reg) (i : BitVec 16) (f : Word → Word → Word) : Host.Outcome State Fault Refusal :=
  writeReg s d (f (s.running.reg a) (sext i))

/-- How many leading zero bits among the n low bits. -/
def leadingZeros : Nat → Word → Nat
  | 0, _ => 0
  | n + 1, x => if x.getLsbD n then 0 else 1 + leadingZeros n x

/-- How many one bits among the n low bits. -/
def oneBits : Nat → Word → Nat
  | 0, _ => 0
  | n + 1, x => (x.getLsbD n).toNat + oneBits n x

/-- The sum (R97). -/
def aluAdd (x y : Word) : Word := x + y

/-- The difference (R97). -/
def aluSub (x y : Word) : Word := x - y

/-- The low 64 bits of the product (R97). -/
def aluMul (x y : Word) : Word := x * y

/-- The high 64 bits of the signed product (R97). -/
def aluMulh (x y : Word) : Word := BitVec.ofInt 64 ((x.toInt * y.toInt) / 2^64)

/-- Signed quotient truncated toward zero; a zero divisor gives -1, and -2^63 by -1 gives -2^63 (R97). -/
def aluDiv (x y : Word) : Word := if y = 0 then BitVec.allOnes 64 else x.sdiv y

/-- Signed remainder; a zero divisor gives x, and -2^63 by -1 gives 0 (R97). -/
def aluRem (x y : Word) : Word := if y = 0 then x else x.srem y

/-- The signed minimum (R97). -/
def aluMin (x y : Word) : Word := if x.sle y then x else y

/-- The signed maximum (R97). -/
def aluMax (x y : Word) : Word := if x.sle y then y else x

/-- Bitwise and (R97). -/
def aluAnd (x y : Word) : Word := x &&& y

/-- Bitwise or (R97). -/
def aluOr (x y : Word) : Word := x ||| y

/-- Bitwise exclusive or (R97). -/
def aluXor (x y : Word) : Word := x ^^^ y

/-- Shift left by y[5:0] (R97). -/
def aluShl (x y : Word) : Word := x <<< (y.toNat % 64)

/-- Shift right by y[5:0], zero-filled (R97). -/
def aluShr (x y : Word) : Word := x >>> (y.toNat % 64)

/-- Shift right by y[5:0], sign-filled (R97). -/
def aluSra (x y : Word) : Word := x.sshiftRight (y.toNat % 64)

/-- Signed comparison (R97). -/
def aluSlt (x y : Word) : Word := if x.slt y then 1 else 0

/-- Unsigned comparison (R97). -/
def aluSltu (x y : Word) : Word := if x.ult y then 1 else 0

/-- ADD (R97). -/
def execAdd (d a b : Reg) (s : State) : Host.Outcome State Fault Refusal := aluReg s d a b aluAdd

/-- ADD with an immediate (R97). -/
def execAddImm (d a : Reg) (i : BitVec 16) (s : State) : Host.Outcome State Fault Refusal := aluImm s d a i aluAdd

/-- SUB (R97). -/
def execSub (d a b : Reg) (s : State) : Host.Outcome State Fault Refusal := aluReg s d a b aluSub

/-- SUB with an immediate (R97). -/
def execSubImm (d a : Reg) (i : BitVec 16) (s : State) : Host.Outcome State Fault Refusal := aluImm s d a i aluSub

/-- MUL (R97). -/
def execMul (d a b : Reg) (s : State) : Host.Outcome State Fault Refusal := aluReg s d a b aluMul

/-- MUL with an immediate (R97). -/
def execMulImm (d a : Reg) (i : BitVec 16) (s : State) : Host.Outcome State Fault Refusal := aluImm s d a i aluMul

/-- MULH (R97). -/
def execMulh (d a b : Reg) (s : State) : Host.Outcome State Fault Refusal := aluReg s d a b aluMulh

/-- MULH with an immediate (R97). -/
def execMulhImm (d a : Reg) (i : BitVec 16) (s : State) : Host.Outcome State Fault Refusal := aluImm s d a i aluMulh

/-- DIV (R97). -/
def execDiv (d a b : Reg) (s : State) : Host.Outcome State Fault Refusal := aluReg s d a b aluDiv

/-- DIV with an immediate (R97). -/
def execDivImm (d a : Reg) (i : BitVec 16) (s : State) : Host.Outcome State Fault Refusal := aluImm s d a i aluDiv

/-- REM (R97). -/
def execRem (d a b : Reg) (s : State) : Host.Outcome State Fault Refusal := aluReg s d a b aluRem

/-- REM with an immediate (R97). -/
def execRemImm (d a : Reg) (i : BitVec 16) (s : State) : Host.Outcome State Fault Refusal := aluImm s d a i aluRem

/-- MIN (R97). -/
def execMin (d a b : Reg) (s : State) : Host.Outcome State Fault Refusal := aluReg s d a b aluMin

/-- MIN with an immediate (R97). -/
def execMinImm (d a : Reg) (i : BitVec 16) (s : State) : Host.Outcome State Fault Refusal := aluImm s d a i aluMin

/-- MAX (R97). -/
def execMax (d a b : Reg) (s : State) : Host.Outcome State Fault Refusal := aluReg s d a b aluMax

/-- MAX with an immediate (R97). -/
def execMaxImm (d a : Reg) (i : BitVec 16) (s : State) : Host.Outcome State Fault Refusal := aluImm s d a i aluMax

/-- AND (R97). -/
def execAnd (d a b : Reg) (s : State) : Host.Outcome State Fault Refusal := aluReg s d a b aluAnd

/-- AND with an immediate (R97). -/
def execAndImm (d a : Reg) (i : BitVec 16) (s : State) : Host.Outcome State Fault Refusal := aluImm s d a i aluAnd

/-- OR (R97). -/
def execOr (d a b : Reg) (s : State) : Host.Outcome State Fault Refusal := aluReg s d a b aluOr

/-- OR with an immediate (R97). -/
def execOrImm (d a : Reg) (i : BitVec 16) (s : State) : Host.Outcome State Fault Refusal := aluImm s d a i aluOr

/-- XOR (R97). -/
def execXor (d a b : Reg) (s : State) : Host.Outcome State Fault Refusal := aluReg s d a b aluXor

/-- XOR with an immediate (R97). -/
def execXorImm (d a : Reg) (i : BitVec 16) (s : State) : Host.Outcome State Fault Refusal := aluImm s d a i aluXor

/-- SHL (R97). -/
def execShl (d a b : Reg) (s : State) : Host.Outcome State Fault Refusal := aluReg s d a b aluShl

/-- SHL with an immediate (R97). -/
def execShlImm (d a : Reg) (i : BitVec 16) (s : State) : Host.Outcome State Fault Refusal := aluImm s d a i aluShl

/-- SHR (R97). -/
def execShr (d a b : Reg) (s : State) : Host.Outcome State Fault Refusal := aluReg s d a b aluShr

/-- SHR with an immediate (R97). -/
def execShrImm (d a : Reg) (i : BitVec 16) (s : State) : Host.Outcome State Fault Refusal := aluImm s d a i aluShr

/-- SRA (R97). -/
def execSra (d a b : Reg) (s : State) : Host.Outcome State Fault Refusal := aluReg s d a b aluSra

/-- SRA with an immediate (R97). -/
def execSraImm (d a : Reg) (i : BitVec 16) (s : State) : Host.Outcome State Fault Refusal := aluImm s d a i aluSra

/-- SLT (R97). -/
def execSlt (d a b : Reg) (s : State) : Host.Outcome State Fault Refusal := aluReg s d a b aluSlt

/-- SLT with an immediate (R97). -/
def execSltImm (d a : Reg) (i : BitVec 16) (s : State) : Host.Outcome State Fault Refusal := aluImm s d a i aluSlt

/-- SLTU (R97). -/
def execSltu (d a b : Reg) (s : State) : Host.Outcome State Fault Refusal := aluReg s d a b aluSltu

/-- SLTU with an immediate (R97). -/
def execSltuImm (d a : Reg) (i : BitVec 16) (s : State) : Host.Outcome State Fault Refusal := aluImm s d a i aluSltu

/-- CLZ (R97): 64 for 0. -/
def execClz (d a : Reg) (s : State) : Host.Outcome State Fault Refusal :=
  writeReg s d (BitVec.ofNat 64 (leadingZeros 64 (s.running.reg a)))

/-- POPC (R97). -/
def execPopc (d a : Reg) (s : State) : Host.Outcome State Fault Refusal :=
  writeReg s d (BitVec.ofNat 64 (oneBits 64 (s.running.reg a)))

/-- MOV of a register group, all at once (R99). -/
def execMov (d a : Reg) (w : Width) (s : State) : Host.Outcome State Fault Refusal :=
  complete s s.running (s.running.setGroup d (s.running.group a w.size))

/-- LUI (R98). -/
def execLui (d : Reg) (i : BitVec 16) (s : State) : Host.Outcome State Fault Refusal := writeReg s d (sext i <<< 16)

/-- ADPC (R98): relative to the instruction's own address. -/
def execAdpc (d : Reg) (i : BitVec 16) (s : State) : Host.Outcome State Fault Refusal :=
  writeReg s d (s.running.pc + 4 * sext i)

end Sys2Proof.Machine
end

