-- ==== Sys2Proof/Machine/Branch.lean ====
section
/-! DEFINITION. Branches, jumps and the hardware loop (R102 to R106). -/

namespace Sys2Proof.Machine

/-- A branch taken goes to pc + 4 * off16 without an end check; one not taken completes (R102, R106). -/
def branch (s : State) (taken : Bool) (o : BitVec 16) : Host.Outcome State Fault Refusal :=
  let c := s.running
  if taken then jumpTo s c (c.pc + 4 * sext o) else complete s c c

/-- BEQ: equal (R102). -/
def execBeq (a b : Reg) (o : BitVec 16) (s : State) : Host.Outcome State Fault Refusal := branch s (s.running.reg a == s.running.reg b) o

/-- BNE: differ (R102). -/
def execBne (a b : Reg) (o : BitVec 16) (s : State) : Host.Outcome State Fault Refusal := branch s (s.running.reg a != s.running.reg b) o

/-- BLT: signed below (R102). -/
def execBlt (a b : Reg) (o : BitVec 16) (s : State) : Host.Outcome State Fault Refusal := branch s ((s.running.reg a).slt (s.running.reg b)) o

/-- BGE: signed not below (R102). -/
def execBge (a b : Reg) (o : BitVec 16) (s : State) : Host.Outcome State Fault Refusal := branch s (!((s.running.reg a).slt (s.running.reg b))) o

/-- BLTU: unsigned below (R102). -/
def execBltu (a b : Reg) (o : BitVec 16) (s : State) : Host.Outcome State Fault Refusal := branch s ((s.running.reg a).ult (s.running.reg b)) o

/-- BGEU: unsigned not below (R102). -/
def execBgeu (a b : Reg) (o : BitVec 16) (s : State) : Host.Outcome State Fault Refusal := branch s (!((s.running.reg a).ult (s.running.reg b))) o

/-- JAL (R103). -/
def execJal (d : Reg) (o : BitVec 21) (s : State) : Host.Outcome State Fault Refusal :=
  let c := s.running
  jumpTo s (c.setReg d (c.pc + 4)) (c.pc + 4 * sext o)

/-- JALR (R103): a target that is not word-aligned traps with gd unchanged. -/
def execJalr (d a : Reg) (i : BitVec 16) (s : State) : Host.Outcome State Fault Refusal :=
  let c := s.running
  let t := c.reg a + sext i
  if t.extractLsb' 0 2 ≠ 0 then trapAt s c 4 t else jumpTo s (c.setReg d (c.pc + 4)) t

/-- LOOP (R104): it never performs the end check. -/
def execLoop (a : Reg) (o : BitVec 16) (s : State) : Host.Outcome State Fault Refusal :=
  let c := s.running
  if c.reg a = 0 then jumpTo s ({ c with lcount := 0 }.setLact false) (c.pc + 4 * sext o + 4)
  else
    jumpTo s ({ c with lstart := c.pc + 4, lend := c.pc + 4 * sext o, lcount := c.reg a }.setLact true) (c.pc + 4)

/-- LOOPX (R105): it never performs the end check (R106). -/
def execLoopx (s : State) : Host.Outcome State Fault Refusal :=
  let c := s.running
  jumpTo s ({ c with lcount := 0 }.setLact false) (c.pc + 4)

end Sys2Proof.Machine
end

