-- ==== Sys2Proof/Machine/KReg.lean ====
section
/-! DEFINITION. The control registers (R40, R45, R89 to R92, R108). -/

namespace Sys2Proof.Machine

/-- The context part that a control core's k-registers belong to (R160). -/
def State.ownPart (s : State) (c : Ctl) : Option CoreCtx := c.owner.bind fun x => s.cctx? c.core x

/-- The context that owns a control core. -/
def State.ownCtx (s : State) (c : Ctl) : Option Ctx := c.owner.bind s.ctx?

/-- k.core: die, cluster, quad and core of a flat index (R1, R89). -/
def kCore (core : Nat) : Word :=
  BitVec.ofNat 64 (core % 512 + 512 * (core % 4) + 2048 * (core / 4 % 4) + 8192 * (core / 16 % 4) + 32768 * (core / 64))

/-- The value KRD reads (R89, R108). -/
def State.kRead (s : State) (c : Ctl) (k : BitVec 12) : Word :=
  let part (f : CoreCtx → Word) : Word := ((s.ownPart c).map f).getD 0
  let ctx (f : Ctx → Word) : Word := ((s.ownCtx c).map f).getD 0
  match k.toNat with
  | 0x000 => c.statusRead
  | 0x001 => c.cause
  | 0x002 => c.epc
  | 0x003 => c.tval
  | 0x004 => c.tvec
  | 0x010 => ctx fun x => BitVec.ofNat 64 (x.prio * 256 + x.id)
  | 0x011 => kCore c.core
  | 0x020 => ctx fun x => BitVec.ofNat 64 x.cols
  | 0x021 => ctx fun x => x.tagfmt.zeroExtend 64
  | 0x030 => part fun x => x.fpmode
  | 0x031 => part fun x => x.fpflags
  | 0x040 => part fun x => BitVec.ofNat 64 x.ebudget
  | 0x041 => ctx fun x => BitVec.ofNat 64 x.erate
  | 0x042 => ctx fun x => BitVec.ofNat 64 x.agewin
  | 0x043 => ctx fun x => BitVec.ofNat 64 x.dlwin
  | 0x050 => c.lstart
  | 0x051 => c.lend
  | 0x052 => c.lcount
  | 0x060 => BitVec.ofNat 64 s.ck
  | 0x061 => c.seq
  | _ => 0

/-- How a k-register instruction writes (R108). -/
inductive KMode where
  | write
  | set
  | clear
deriving DecidableEq, Repr

/-- The new value of a register with RW bits `rw` and W1C bits `w1c` (R108); the other bits stay. -/
def kUpdate (m : KMode) (old v rw w1c : Word) : Word :=
  let kept := old &&& ~~~(rw ||| w1c)
  match m with
  | .write => kept ||| (v &&& rw) ||| (old &&& w1c &&& ~~~v)
  | .set => kept ||| ((old ||| v) &&& rw) ||| (old &&& w1c &&& ~~~v)
  | .clear => kept ||| (old &&& ~~~v &&& rw) ||| (old &&& w1c)

/-- The RW bits of k.status (R90): PLACT, LACT, HND, PIE, IE, PPRIV, PRIV. -/
def statusRw : Word := 0x7F

/-- The W1C bits of k.status (R90): PEND. -/
def statusW1c : Word := 0x700000000

/-- Whether a write is refused for want of privilege (R92). -/
def kPrivileged (m : KMode) (c : Ctl) (k : BitVec 12) (v : Word) : Bool :=
  match k.toNat with
  | 0x000 => ((kUpdate m c.status v statusRw statusW1c) ^^^ c.status) &&& ~~~(0x20 : Word) != 0
  | 0x001 | 0x002 | 0x003 | 0x004 => true
  | _ => false

/-- The write itself (R40, R45, R89, R90, R108): the context part and the control core after it. A flag or PEND bit that the HN7 has set
in this ck stays set. -/
def State.kWrite (s : State) (m : KMode) (c : Ctl) (k : BitVec 12) (v : Word) : State × Ctl :=
  let part (f : CoreCtx → CoreCtx) : State :=
    match c.owner with
    | some x => s.modCctx c.core x f
    | none => s
  let al : Word := ~~~(3 : Word)
  match k.toNat with
  | 0x000 => (s, { c with status := kUpdate m c.status v statusRw statusW1c ||| (c.status &&& statusW1c &&& raisedIn s.ck c.raised) })
  | 0x001 => (s, { c with cause := kUpdate m c.cause v 0x80000000000000FF 0 })
  | 0x002 => (s, { c with epc := kUpdate m c.epc v al 0 })
  | 0x003 => (s, { c with tval := kUpdate m c.tval v (BitVec.allOnes 64) 0 })
  | 0x004 => (s, { c with tvec := kUpdate m c.tvec v al 0 })
  | 0x030 => (part fun x =>
      let n := kUpdate m x.fpmode v 0xF 0
      if 4 < (n.extractLsb' 0 3).toNat then x else { x with fpmode := n }, c)
  | 0x031 => (part fun x => { x with fpflags := kUpdate m x.fpflags v 0 0x7FFF ||| (x.fpflags &&& raisedIn s.ck x.raised) }, c)
  | 0x050 => (s, { c with lstart := kUpdate m c.lstart v al 0 })
  | 0x051 => (s, { c with lend := kUpdate m c.lend v al 0 })
  | 0x052 => (s, { c with lcount := kUpdate m c.lcount v (BitVec.allOnes 64) 0 })
  | _ => (s, c)

/-- The mould of KWR, KSET and KCLR: the privilege check, then the write (R92, R108). -/
def kInstr (s : State) (m : KMode) (a : Reg) (k : BitVec 12) : Host.Outcome State Fault Refusal :=
  let c := s.running
  if !c.priv && kPrivileged m c k (c.reg a) then trapAt s c 3 ((s.fetchWord c.core c.pc).zeroExtend 64)
  else
    let r := s.kWrite m c k (c.reg a)
    completeIn s r.1 c r.2

/-- KRD (R108). -/
def execKrd (d : Reg) (k : BitVec 12) (s : State) : Host.Outcome State Fault Refusal :=
  let c := s.running
  complete s c (c.setReg d (s.kRead c k))

/-- KWR (R108). -/
def execKwr (a : Reg) (k : BitVec 12) (s : State) : Host.Outcome State Fault Refusal := kInstr s .write a k

/-- KSET (R108). -/
def execKset (a : Reg) (k : BitVec 12) (s : State) : Host.Outcome State Fault Refusal := kInstr s .set a k

/-- KCLR (R108). -/
def execKclr (a : Reg) (k : BitVec 12) (s : State) : Host.Outcome State Fault Refusal := kInstr s .clear a k

end Sys2Proof.Machine
end

