-- ==== Sys2Proof/Machine/Numbers.lean ====
section
/-! DEFINITION. Numbers (R31 to R44): exact values, the storage formats, and rounding once. -/

namespace Sys2Proof.Machine

/-- The value of an element: a NaN, an infinity, or (-1)^s * m * 2^e exactly (R31, R35, R36). -/
inductive Val where
  | nan
  | inf (s : Bool)
  | fin (s : Bool) (m : Nat) (e : Int)
deriving DecidableEq, Repr

/-- Rounding modes (R38). -/
inductive RM where
  | rne | rtz | rup | rdn | rna
deriving DecidableEq, Repr

/-- The mode of a code 0 to 4 (R38). Codes 5 to 7 never reach a rounding. -/
def RM.ofCode : Nat → RM
  | 0 => .rne
  | 1 => .rtz
  | 2 => .rup
  | 3 => .rdn
  | _ => .rna

/-- The code of a mode (R38). -/
def RM.code : RM → Nat
  | .rne => 0
  | .rtz => 1
  | .rup => 2
  | .rdn => 3
  | .rna => 4

/-- The five sticky flags of an engine (R44). -/
structure Flags where
  nv : Bool := false
  dz : Bool := false
  of : Bool := false
  uf : Bool := false
  nx : Bool := false
deriving DecidableEq, Repr

/-- Both sets of flags. -/
def Flags.or (f g : Flags) : Flags := ⟨f.nv || g.nv, f.dz || g.dz, f.of || g.of, f.uf || g.uf, f.nx || g.nx⟩

/-- The flags as bits 4 to 0: NV, DZ, OF, UF, NX (R45). -/
def Flags.bits (f : Flags) : Nat := 16 * f.nv.toNat + 8 * f.dz.toNat + 4 * f.of.toNat + 2 * f.uf.toNat + f.nx.toNat

/-- The flags that bits 4 to 0 stand for (R45). -/
def Flags.ofBits (n : Nat) : Flags :=
  { nv := n.testBit 4, dz := n.testBit 3, of := n.testBit 2, uf := n.testBit 1, nx := n.testBit 0 }

/-- No flag. -/
def noFlags : Flags := {}

/-- Only NV (R44: an element that sets NV never sets NX). -/
def flagNV : Flags := { nv := true }

/-- The flags of one delivered element: one that sets NV does not set NX (R44). -/
def Flags.element (f : Flags) : Flags := { f with nx := f.nx && !f.nv }

/-- Zero of a sign. -/
def Val.zero (s : Bool) : Val := .fin s 0 0

/-- An integer as a value; 0 is +0. -/
def Val.ofInt (i : Int) : Val := .fin (decide (i < 0)) i.natAbs 0

/-- Whether a value is a NaN. -/
def Val.isNaN : Val → Bool
  | .nan => true
  | _ => false

/-- Whether a value is a zero of either sign. -/
def Val.isZero : Val → Bool
  | .fin _ 0 _ => true
  | _ => false

/-- The sign bit of a value; a NaN has sign 0 (R32). -/
def Val.sign : Val → Bool
  | .nan => false
  | .inf s => s
  | .fin s _ _ => s

/-- The value with a given sign; a NaN is unchanged. -/
def Val.withSign (s : Bool) : Val → Val
  | .nan => .nan
  | .inf _ => .inf s
  | .fin _ m e => .fin s m e

/-- A positive magnitude m * 2^e, or one strictly between m * 2^e and (m + 1) * 2^e when `st` is set. -/
structure Mag where
  m : Nat
  e : Int
  st : Bool
deriving DecidableEq, Repr

/-- A float target (R41): significand bits, exponents of the smallest and largest normal binade, and the largest
significand of the top binade. -/
structure Target where
  p : Nat
  emin : Int
  emax : Int
  top : Nat
deriving DecidableEq, Repr

/-- XF (R31). -/
def xfTarget : Target := ⟨64, -16382, 16383, 2^64 - 1⟩

/-- The 32-bit significand target of the transcendental operators, over XF's exponent range (R51). -/
def xf32Target : Target := ⟨32, -16382, 16383, 2^32 - 1⟩

/-- Plane form as a target (R41): E8 has FP32's exponent range, E16 has XF's. -/
def planeTarget (e16 : Bool) (p : Nat) : Target :=
  if e16 then ⟨8 * p, -16382, 16383, 2^(8 * p) - 1⟩ else ⟨8 * p, -126, 127, 2^(8 * p) - 1⟩

/-- The float storage formats as targets (R33), by format code. -/
def floatTarget : Nat → Option Target
  | 0 => some ⟨53, -1022, 1023, 2^53 - 1⟩
  | 1 => some ⟨24, -126, 127, 2^24 - 1⟩
  | 2 => some ⟨11, -14, 15, 2^11 - 1⟩
  | 3 => some ⟨8, -126, 127, 2^8 - 1⟩
  | 4 => some ⟨4, -6, 8, 14⟩
  | 5 => some ⟨3, -14, 15, 7⟩
  | 13 => some xfTarget
  | _ => none

/-- Multiply by a power of two, dropping bits below 1. -/
def shiftNat (m : Nat) (k : Int) : Nat := if 0 ≤ k then m <<< k.toNat else m >>> (-k).toNat

/-- Whether m * 2^e is at least n * 2^f, exactly. -/
def magGe (m : Nat) (e : Int) (n : Nat) (f : Int) : Bool :=
  let g := min e f
  decide (n <<< (f - g).toNat ≤ m <<< (e - g).toNat)

/-- The rounded magnitude of a nonzero magnitude: its significand and exponent, whether it overflows, and whether it is
inexact and tiny (R41, R44). -/
def roundMag (t : Target) (mode : RM) (s : Bool) (x : Mag) : Nat × Int × Bool × Bool × Bool :=
  let top : Int := (Nat.log2 x.m : Int) + x.e
  let q : Int := max (top - t.p + 1) (t.emin - t.p + 1)
  let k : Int := q - x.e
  let n : Nat := shiftNat x.m (-k)
  let rem : Nat := if 0 < k then x.m - (n <<< k.toNat) else 0
  let half : Nat := if 0 < k then 1 <<< (k.toNat - 1) else 0
  let inexact : Bool := x.st || decide (rem ≠ 0)
  let up : Bool := match mode with
    | .rne => decide (0 < k) && (decide (half < rem) || (decide (rem = half) && (x.st || decide (n % 2 = 1))))
    | .rna => decide (0 < k) && decide (half ≤ rem)
    | .rtz => false
    | .rup => !s && inexact
    | .rdn => s && inexact
  let n' : Nat := if up then n + 1 else n
  let ovf : Bool := decide (n' ≠ 0) && !(magGe t.top (t.emax - t.p + 1) n' q)
  (n', q, ovf, inexact, decide (top < t.emin))

/-- The overflow result of R42: whether it is the infinity (otherwise the largest finite value). -/
def overflowsToInf (mode : RM) (s : Bool) : Bool :=
  match mode with
  | .rne | .rna => true
  | .rtz => false
  | .rup => !s
  | .rdn => s

/-- Round a signed magnitude once to a float target with infinities (R41, R42), with its flags (R44). A magnitude with a
sticky bit is never 0 here. -/
def roundTo (t : Target) (mode : RM) (s : Bool) (x : Mag) : Val × Flags :=
  if x.m = 0 then (.fin s 0 0, noFlags)
  else
    let (n, q, ovf, inexact, tiny) := roundMag t mode s x
    if ovf then
      (if overflowsToInf mode s then .inf s else .fin s t.top (t.emax - t.p + 1), { of := true, nx := true })
    else (.fin s n q, { uf := tiny && inexact, nx := inexact })

/-- Round a value to a float target with infinities. -/
def Val.round (t : Target) (mode : RM) : Val → Val × Flags
  | .nan => (.nan, noFlags)
  | .inf s => (.inf s, noFlags)
  | .fin s m e => roundTo t mode s ⟨m, e, false⟩

/-- Round a value once to XF (R7 `round_xf`). -/
def roundXf (mode : RM) (v : Val) : Val × Flags := v.round xfTarget mode

/-- The largest finite value of a target, with a sign. -/
def Target.max (t : Target) (s : Bool) : Val := .fin s t.top (t.emax - t.p + 1)

/-- Round a value once to a float storage format with its FP8 rules (R41, R42); an infinity delivered as ±max differs from the
exact result and sets NX, and no OF (R44). -/
def roundFloat (fmt : Nat) (sat : Bool) (mode : RM) (t : Target) (v : Val) : Val × Flags :=
  let fp8 : Bool := fmt = 4 ∨ fmt = 5
  match v with
  | .nan => (.nan, noFlags)
  | .inf s =>
    if fp8 && sat then (t.max s, { nx := true })
    else if fmt = 4 then (.nan, flagNV)
    else (.inf s, noFlags)
  | .fin s m e =>
    let r := roundTo t mode s ⟨m, e, false⟩
    if r.2.of then
      if fp8 && sat then (t.max s, r.2)
      else match r.1 with
        | .inf _ => if fmt = 4 then (.nan, r.2) else r
        | _ => r
    else r

/-- Round a signed magnitude once to a float storage format, for quotients (R52). -/
def roundFloatMag (fmt : Nat) (sat : Bool) (mode : RM) (t : Target) (s : Bool) (x : Mag) : Val × Flags :=
  let r := roundTo t mode s x
  if r.2.of then
    if (fmt = 4 ∨ fmt = 5) ∧ sat = true then (t.max s, r.2)
    else match r.1 with
      | .inf _ => if fmt = 4 then (.nan, r.2) else r
      | _ => r
  else r

/-- The integer that a signed magnitude rounds to, and whether that is inexact (R43). -/
def roundInt (mode : RM) (s : Bool) (x : Mag) : Int × Bool :=
  let k : Int := -x.e
  let n : Nat := shiftNat x.m x.e
  let rem : Nat := if 0 < k then x.m - (n <<< k.toNat) else 0
  let half : Nat := if 0 < k then 1 <<< (k.toNat - 1) else 0
  let inexact : Bool := x.st || decide (rem ≠ 0)
  let up : Bool := match mode with
    | .rne => decide (0 < k) && (decide (half < rem) || (decide (rem = half) && (x.st || decide (n % 2 = 1))))
    | .rna => decide (0 < k) && decide (half ≤ rem)
    | .rtz => false
    | .rup => !s && inexact
    | .rdn => s && inexact
  let n' : Nat := if up then n + 1 else n
  (if s then -(n' : Int) else n', inexact)

/-- The range of an integer format (R33), by format code. -/
def intRange : Nat → Option (Int × Int)
  | 6 => some (-2147483648, 2147483647)
  | 7 => some (-32768, 32767)
  | 8 => some (-128, 127)
  | 9 => some (0, 255)
  | 10 => some (-8, 7)
  | 11 => some (-4, 3)
  | _ => none

/-- Store a signed magnitude as an integer of a range (R43). -/
def toIntRange (lo hi : Int) (mode : RM) (s : Bool) (x : Mag) : Int × Flags :=
  let (i, inexact) := roundInt mode s x
  if i < lo then (lo, flagNV) else if hi < i then (hi, flagNV) else (i, { nx := inexact })

/-- Store a value as an integer of a range (R43): NaN stores as 0 with NV, an infinity saturates with NV. -/
def Val.toRange (lo hi : Int) (mode : RM) : Val → Int × Flags
  | .nan => (0, flagNV)
  | .inf s => (if s then lo else hi, flagNV)
  | .fin s m e => toIntRange lo hi mode s ⟨m, e, false⟩

/-- Store a value as BIT (R43). -/
def Val.toBit : Val → Nat × Flags
  | .nan => (1, flagNV)
  | .inf _ => (1, { nx := true })
  | .fin s m e =>
    if m = 0 then (0, noFlags)
    else if s = false ∧ magGe m e 1 0 = true ∧ magGe 1 0 m e = true then (1, noFlags)
    else (1, { nx := true })

/-- Exponent field width, fraction width and bias of a float format other than XF (R33). -/
def floatFields : Nat → Option (Nat × Nat × Nat)
  | 0 => some (11, 52, 1023)
  | 1 => some (8, 23, 127)
  | 2 => some (5, 10, 15)
  | 3 => some (8, 7, 127)
  | 4 => some (4, 3, 7)
  | 5 => some (5, 2, 15)
  | _ => none

/-- The value of a float encoding and whether it is a signalling NaN (R33). -/
def decodeFloat (fmt : Nat) (ew fw bias bits : Nat) : Val × Bool :=
  let s := decide (bits / 2^(ew + fw) % 2 = 1)
  let e := bits / 2^fw % 2^ew
  let f := bits % 2^fw
  if fmt = 4 then
    if e = 15 ∧ f = 7 then (.nan, false)
    else if e = 0 then (.fin s f (1 - 7 - 3), false)
    else (.fin s (f + 8) ((e : Int) - 7 - 3), false)
  else if e = 2^ew - 1 then
    if f = 0 then (.inf s, false)
    else (.nan, decide (fmt ≠ 5 ∧ f < 2^(fw - 1)))
  else if e = 0 then (.fin s f (1 - (bias : Int) - fw), false)
  else (.fin s (f + 2^fw) ((e : Int) - bias - fw), false)

/-- The significand of a rounded value shifted so that its top bit is bit p - 1, or a subnormal at the smallest normal's
quantum, with the unbiased exponent of its binade (none for a zero or subnormal). -/
def normalise (t : Target) (m : Nat) (e : Int) : Nat × Option Int :=
  if m = 0 then (0, none)
  else
    let top : Int := (Nat.log2 m : Int) + e
    if top < t.emin then (shiftNat m (e - (t.emin - t.p + 1)), none)
    else (shiftNat m (e - (top - t.p + 1)), some top)

/-- The encoding of a value that lies in a float format (R33). -/
def encodeFloat (fmt ew fw bias : Nat) (t : Target) (v : Val) : Nat :=
  match v with
  | .nan => if fmt = 4 then 0x7F else if fmt = 5 then 0x7E else (2^ew - 1) * 2^fw + 2^(fw - 1)
  | .inf s => s.toNat * 2^(ew + fw) + (2^ew - 1) * 2^fw
  | .fin s m e =>
    match normalise t m e with
    | (n, none) => s.toNat * 2^(ew + fw) + n
    | (n, some top) => s.toNat * 2^(ew + fw) + (top + bias).toNat * 2^fw + (n - 2^fw)

/-- The value of an XF encoding and whether it is read as signalling (R31). -/
def decodeXf (w : BitVec 80) : Val × Bool :=
  let s := w.getLsbD 79
  let e := (w.extractLsb' 64 15).toNat
  let f := (w.extractLsb' 0 64).toNat
  if e = 0x7FFF then
    if f = 2^63 then (.inf s, false)
    else (.nan, decide (f / 2^62 % 2 = 0))
  else if e = 0 then (.fin s f (-16382 - 63), false)
  else (.fin s f ((e : Int) - 16383 - 63), false)

/-- The XF encoding of a value that lies in XF (R31, R32). -/
def encodeXf (v : Val) : BitVec 80 :=
  match v with
  | .nan => BitVec.ofNat 80 (0x7FFF * 2^64 + 0xC000000000000000)
  | .inf s => BitVec.ofNat 80 (s.toNat * 2^79 + 0x7FFF * 2^64 + 2^63)
  | .fin s m e =>
    match normalise xfTarget m e with
    | (n, none) => BitVec.ofNat 80 (s.toNat * 2^79 + n)
    | (n, some top) => BitVec.ofNat 80 (s.toNat * 2^79 + (top + 16383).toNat * 2^64 + n)

/-- The value of an FP64 bit pattern and whether it is a signalling NaN (R117). -/
def decodeFp64 (w : Word) : Val × Bool := decodeFloat 0 11 52 1023 w.toNat

/-- The FP64 bit pattern of a value that lies in FP64. -/
def encodeFp64 (v : Val) : Word := BitVec.ofNat 64 (encodeFloat 0 11 52 1023 ⟨53, -1022, 1023, 2^53 - 1⟩ v)

/-- Exact sum of signed magnitudes; the flag says that the sum is an exact zero of cancelling or unlike-signed addends. -/
def addFin (s : Bool) (m : Nat) (e : Int) (s' : Bool) (m' : Nat) (e' : Int) : Val :=
  let g := min e e'
  let a : Int := (m <<< (e - g).toNat : Nat)
  let b : Int := (m' <<< (e' - g).toNat : Nat)
  let sum : Int := (if s then -a else a) + (if s' then -b else b)
  .fin (decide (sum < 0)) sum.natAbs g

/-- Exact sum before rounding (R145); an exact zero keeps a common sign and otherwise takes Config's (log 11). -/
def addVal (mode : RM) : Val → Val → Val × Flags
  | .nan, _ => (.nan, noFlags)
  | _, .nan => (.nan, noFlags)
  | .inf s, .inf s' => if s = s' then (.inf s, noFlags) else (.nan, flagNV)
  | .inf s, _ => (.inf s, noFlags)
  | _, .inf s => (.inf s, noFlags)
  | .fin s m e, .fin s' m' e' =>
    match addFin s m e s' m' e' with
    | .fin _ 0 g => (.fin (if s = s' then s else Config.zeroSumSign mode.code) 0 g, noFlags)
    | v => (v, noFlags)

/-- The negative of a value; a NaN stays the NaN (R145 VNEG). -/
def Val.neg : Val → Val
  | .nan => .nan
  | .inf s => .inf (!s)
  | .fin s m e => .fin (!s) m e

/-- Exact product before rounding; its sign is the exclusive or of the signs (R47). -/
def mulVal : Val → Val → Val × Flags
  | .nan, _ => (.nan, noFlags)
  | _, .nan => (.nan, noFlags)
  | .inf s, .inf s' => (.inf (s != s'), noFlags)
  | .inf s, .fin s' m _ => if m = 0 then (.nan, flagNV) else (.inf (s != s'), noFlags)
  | .fin s m _, .inf s' => if m = 0 then (.nan, flagNV) else (.inf (s != s'), noFlags)
  | .fin s m e, .fin s' m' e' => (.fin (s != s') (m * m') (e + e'), noFlags)

/-- The quotient of two positive magnitudes to at least 200 bits, with a sticky bit. -/
def divMag (m : Nat) (e : Int) (m' : Nat) (e' : Int) : Mag :=
  let k : Nat := 200 + Nat.log2 m' + 1
  let n := m <<< k
  ⟨n / m', e - e' - k, decide (n % m' ≠ 0)⟩

/-- The special cases of a quotient (R146 VDIV), or the sign and magnitude to be rounded. -/
def divVal : Val → Val → (Val × Flags) ⊕ (Bool × Mag)
  | .nan, _ => .inl (.nan, noFlags)
  | _, .nan => .inl (.nan, noFlags)
  | .inf _, .inf _ => .inl (.nan, flagNV)
  | .inf s, .fin s' _ _ => .inl (.inf (s != s'), noFlags)
  | .fin s _ _, .inf s' => .inl (.zero (s != s'), noFlags)
  | .fin s m e, .fin s' m' e' =>
    if m' = 0 then (if m = 0 then .inl (.nan, flagNV) else .inl (.inf (s != s'), { dz := true }))
    else if m = 0 then .inl (.zero (s != s'), noFlags)
    else .inr (s != s', divMag m e m' e')

/-- Three-way comparison of two values that are not NaN, zeros equal: less, equal, greater. -/
def cmpFin (s : Bool) (m : Nat) (e : Int) (s' : Bool) (m' : Nat) (e' : Int) : Ordering :=
  match addFin s m e (!s') m' e' with
  | .fin _ 0 _ => .eq
  | .fin true _ _ => .lt
  | _ => .gt

/-- Compare two values; none when either is a NaN (R149). -/
def Val.cmp : Val → Val → Option Ordering
  | .nan, _ => none
  | _, .nan => none
  | .inf s, .inf s' => some (if s = s' then .eq else if s then .lt else .gt)
  | .inf s, _ => some (if s then .lt else .gt)
  | _, .inf s => some (if s then .gt else .lt)
  | .fin s m e, .fin s' m' e' => some (cmpFin s m e s' m' e')

/-- The larger (R145 VMAX): a NaN yields the other operand, and -0 is below +0. -/
def Val.max (x y : Val) : Val :=
  match x.cmp y with
  | none => if x.isNaN then y else x
  | some .lt => y
  | some .gt => x
  | some .eq => if x.sign then y else x

/-- The smaller (R145 VMIN). -/
def Val.min (x y : Val) : Val :=
  match x.cmp y with
  | none => if x.isNaN then y else x
  | some .lt => x
  | some .gt => y
  | some .eq => if x.sign then x else y

/-- Integer square root, one bit at a time from bit k. -/
def isqrtGo : Nat → Nat → Nat → Nat
  | 0, n, r => if (r + 1) * (r + 1) ≤ n then r + 1 else r
  | k + 1, n, r => isqrtGo k n (if (r + 2^(k + 1)) * (r + 2^(k + 1)) ≤ n then r + 2^(k + 1) else r)

/-- The floor of the square root. -/
def isqrt (n : Nat) : Nat := isqrtGo (Nat.log2 n / 2 + 1) n 0

/-- The square root of a positive magnitude to about 200 bits, with a sticky bit. -/
def sqrtMag (m : Nat) (e : Int) : Mag :=
  let k : Nat := 400 + (if (e - 400) % 2 = 0 then 0 else 1)
  let n := m <<< k
  let r := isqrt n
  ⟨r, (e - k) / 2, decide (r * r ≠ n)⟩

/-- The reciprocal square root of a positive magnitude to about 200 bits, with a sticky bit. -/
def rsqrtMag (m : Nat) (e : Int) : Mag :=
  let k : Nat := 2 * (Nat.log2 m + 1) + 400 + (if e % 2 = 0 then 0 else 1)
  let n := (1 <<< k) / m
  let r := isqrt n
  ⟨r, (-e - k) / 2, decide (r * r * m ≠ 1 <<< k)⟩

/-- Truncate toward zero to a 64-bit signed integer (R151): NX if not an integer, NV with saturation or NaN. The value itself,
before truncation, decides whether it lies in the range. -/
def Val.toInt64 : Val → Int × Flags
  | .nan => (0, flagNV)
  | .inf s => (if s then -(2^63) else 2^63 - 1, flagNV)
  | .fin s m e =>
    if magGe (if s then 2^63 else 2^63 - 1) 0 m e then
      let (i, inexact) := roundInt .rtz s ⟨m, e, false⟩
      (i, { nx := inexact })
    else (if s then -(2^63) else 2^63 - 1, flagNV)

/-- An element read as an index (R157 TPERM, R242): none when it is not an integer; an integer beyond 64 bits saturates, with
NV (R151). -/
def Val.toIndex (v : Val) : Option (Int × Flags) :=
  match v with
  | .fin s m e => if (roundInt .rtz s ⟨m, e, false⟩).2 then none else some v.toInt64
  | _ => none

end Sys2Proof.Machine
end

