-- ==== Sys2Proof/Machine/Flags.lean ====
section
/-! DEFINITION. The sticky flags of the engines (R44, R45) and the rounding mode of a firing (R38 to R40). -/

namespace Sys2Proof.Machine

/-- Where an engine's flags lie in k.fpflags (R45). -/
def flagShift : Eng → Nat
  | .m => 0
  | .v => 5
  | _ => 10

/-- An engine's flags as bits of k.fpflags; M's DZ always reads 0 (R45). -/
def flagBits (e : Eng) (f : Flags) : Word :=
  BitVec.ofNat 64 ((if e = .m then { f with dz := false } else f : Flags).bits * 2^(flagShift e))

/-- Set flags of an engine for a context on a core; they are noted for this ck (R45). -/
def State.setFlags (s : State) (core ctx : Nat) (e : Eng) (f : Flags) : State :=
  s.modCctx core ctx fun x => { x with fpflags := x.fpflags ||| flagBits e f, raised := noteRaised s.ck (flagBits e f) x.raised }

/-- k.fpmode.FORCE and RM (R40): the override mode, if forced. -/
def CoreCtx.forced (x : CoreCtx) : Option Nat :=
  if x.fpmode.getLsbD 3 then some (x.fpmode.extractLsb' 0 3).toNat else none

/-- The mode code of a firing at issue (R39): the override, else the side record's; code 7 means the object's (R38). -/
def modeCode (x : CoreCtx) (side : Nat) : Nat := x.forced.getD side

/-- The mode of a firing for an object: code 7 takes the object record's mode (R38, R39). -/
def modeFor (code objRm : Nat) : RM := RM.ofCode (if code = 7 then objRm else code)

end Sys2Proof.Machine
end

