-- ==== Sys2Proof/Machine/Tiles.lean ====
section
/-! DEFINITION. Tiles in plane form (R10, R11, R35, R36, R72) and the storage formats (R33, R34, R37, R52, R53). -/

namespace Sys2Proof.Machine

/-- The fields of a tile descriptor (R11, R72); `rest` is the upper allocation-reference bits with bits [63:57]. -/
structure Desc where
  addr : Nat
  rows : Nat
  cols : Nat
  p : Nat
  e16 : Bool
  kind : Nat
  psn : Bool
  alloc : Nat
  rest : Nat
deriving DecidableEq, Repr

/-- Read a descriptor from payload words 0 and 1 (R72). -/
def Desc.ofWords (w0 w1 : Word) : Desc :=
  { addr := (w0.extractLsb' 0 22).toNat, rows := (w0.extractLsb' 22 7).toNat, cols := (w0.extractLsb' 29 7).toNat,
    p := (w0.extractLsb' 36 4).toNat, e16 := w0.getLsbD 40, kind := (w0.extractLsb' 41 2).toNat, psn := w0.getLsbD 43,
    alloc := (w0.extractLsb' 44 13).toNat, rest := (w0.extractLsb' 57 7).toNat + w1.toNat * 128 }

/-- Descriptor word 0 (R72); word 1 of a descriptor an engine makes is 0. -/
def Desc.word (d : Desc) : Word :=
  BitVec.ofNat 64 (d.addr + 2^22 * d.rows + 2^29 * d.cols + 2^36 * d.p + 2^40 * d.e16.toNat + 2^41 * d.kind
    + 2^43 * d.psn.toNat + 2^44 * d.alloc)

/-- The first multiple of k at or after n. -/
def alignUp (k n : Nat) : Nat := (n + k - 1) / k * k

/-- Bytes of one dense part, sign plane first, each plane on a 16-byte boundary (R10). -/
def denseBytes (n : Nat) (e16 : Bool) (p : Nat) : Nat :=
  let planes := (if e16 then 2 else 1) + p
  alignUp 16 ((n + 7) / 8) + (planes - 1) * alignUp 16 n + n

/-- Bytes of a tile (R10). -/
def tileBytes (kind rows cols : Nat) (e16 : Bool) (p : Nat) : Nat :=
  let n := rows * cols
  match kind with
  | 0 => denseBytes n e16 p
  | 1 => (n + 1) / 2
  | 2 => (n + 7) / 8
  | _ => alignUp 512 (denseBytes n e16 p) + denseBytes n e16 p

/-- Bytes of the tile a descriptor names. -/
def Desc.bytes (d : Desc) : Nat := tileBytes d.kind d.rows d.cols d.e16 d.p

/-- The field limits of R11 and the end rule of R72, without the allocation record. -/
def Desc.fieldsOk (d : Desc) : Bool :=
  decide (d.addr % 512 = 0) && decide (d.addr < 2359296) && decide (1 ≤ d.rows ∧ d.rows ≤ 64)
    && decide (1 ≤ d.cols ∧ d.cols ≤ 64)
    && (if d.kind = 0 ∨ d.kind = 3 then decide (1 ≤ d.p ∧ d.p ≤ 8) else decide (d.p = 0))
    && decide (d.addr + d.bytes ≤ 2359296) && decide (d.alloc ≤ 4607) && decide (d.rest = 0)

/-- A plane-form element as stored: sign, exponent, the P digits as one number (R35). -/
structure Elem where
  s : Bool
  e : Nat
  d : Nat
deriving DecidableEq, Repr

/-- The exponent bias of plane form (R35). -/
def planeBias (e16 : Bool) : Nat := if e16 then 16383 else 127

/-- The all-ones exponent of plane form (R36). -/
def planeOnes (e16 : Bool) : Nat := if e16 then 0x7FFF else 255

/-- The value of a plane-form element (R35, R36). -/
def Elem.val (e16 : Bool) (p : Nat) (x : Elem) : Val :=
  if x.e = planeOnes e16 then (if x.d = 0 then .inf x.s else .nan)
  else .fin x.s x.d ((max x.e 1 : Nat) - (planeBias e16 : Int) - 7 - 8 * ((p : Int) - 1))

/-- The element of the canonical NaN in plane form (R32, R36; its digits beyond XF's are log 8). -/
def nanElem (e16 : Bool) (p : Nat) : Elem := ⟨false, planeOnes e16, 0xC0 * 2^(8 * (p - 1))⟩

/-- The plane-form element of a value that lies in the plane form (R35). -/
def Elem.ofVal (e16 : Bool) (p : Nat) (v : Val) : Elem :=
  match v with
  | .nan => nanElem e16 p
  | .inf s => ⟨s, planeOnes e16, 0⟩
  | .fin s m e =>
    if m = 0 then ⟨s, 0, 0⟩
    else match normalise (planeTarget e16 p) m e with
      | (n, none) => ⟨s, 1, n⟩
      | (n, some top) => ⟨s, (top + planeBias e16).toNat, n⟩

/-- The first n bits of a run of bytes, bit 0 of each byte first (R10). -/
def unpackBits (n : Nat) (bs : List Byte) : List Bool :=
  (bs.flatMap fun b => (List.range 8).map fun i => b.getLsbD i).take n

/-- Bits packed into bytes, the bits beyond the last 0 (R10). -/
def packBits : Nat → List Bool → List Byte
  | 0, _ => []
  | k + 1, bs =>
    BitVec.ofNat 8 (((bs.take 8).zipIdx.map fun (b, i) => if b then 2^i else 0).sum) :: packBits k (bs.drop 8)

/-- The first n bytes of a run, with 0 for what it lacks. -/
def padTo (n : Nat) (bs : List Byte) : List Byte := bs.take n ++ List.replicate (n - bs.length) 0

/-- The planes after the sign plane, each as a list of n numbers. -/
def readPlanes (n : Nat) : Nat → List Byte → List (List Nat)
  | 0, _ => []
  | k + 1, bs => (bs.take n).map (·.toNat) :: readPlanes n k (bs.drop (alignUp 16 n))

/-- The elements of a dense part (R10, R35). -/
def readDense (n : Nat) (e16 : Bool) (p : Nat) (bs : List Byte) : List Elem :=
  let signs := unpackBits n bs
  let ps := readPlanes n ((if e16 then 2 else 1) + p) (bs.drop (alignUp 16 ((n + 7) / 8)))
  let exps : List Nat :=
    if e16 then List.zipWith (fun h l => h % 128 * 256 + l) (ps.getD 0 []) (ps.getD 1 []) else ps.getD 0 []
  let digs := (ps.drop (if e16 then 2 else 1)).foldl (fun acc pl => List.zipWith (fun x y => x * 256 + y) acc pl)
    (List.replicate n 0)
  List.zipWith (fun s (ed : Nat × Nat) => ⟨s, ed.1, ed.2⟩) signs (exps.zip digs)

/-- A byte plane with the gap up to the next plane. -/
def planeBytes (n : Nat) (vs : List Nat) : List Byte := padTo (alignUp 16 n) (vs.map (BitVec.ofNat 8))

/-- The bytes of a dense part, its gaps written as 0 (R10). -/
def writeDense (n : Nat) (e16 : Bool) (p : Nat) (xs : List Elem) : List Byte :=
  let sb := (n + 7) / 8
  let body := padTo (alignUp 16 sb) (packBits sb (xs.map (·.s)))
    ++ ((if e16 then planeBytes n (xs.map fun x => x.e / 256) ++ planeBytes n (xs.map fun x => x.e % 256)
         else planeBytes n (xs.map fun x => x.e))
        ++ ((List.range p).flatMap fun i => planeBytes n (xs.map fun x => x.d / 2^(8 * (p - 1 - i)) % 256)))
  padTo (denseBytes n e16 p) body

/-- A tile held as values. `kind` as TKIND (R72): a dense or complex tile keeps its elements as stored (a complex tile's
imaginary part after its real part); a mask or half-digit tile has one integer for each element. -/
structure Tile where
  kind : Nat
  rows : Nat
  cols : Nat
  e16 : Bool
  p : Nat
  elems : List Elem
  ints : List Int
deriving DecidableEq, Repr

/-- Read a tile from its bytes (R10). -/
def readTile (d : Desc) (bs : List Byte) : Tile :=
  let n := d.rows * d.cols
  let base : Tile := { kind := d.kind, rows := d.rows, cols := d.cols, e16 := d.e16, p := d.p, elems := [], ints := [] }
  match d.kind with
  | 0 => { base with elems := readDense n d.e16 d.p bs }
  | 1 => { base with ints := (bs.flatMap fun b => [(b.extractLsb' 0 4).toInt, (b.extractLsb' 4 4).toInt]).take n }
  | 2 => { base with ints := (unpackBits n bs).map fun b => if b then 1 else 0 }
  | _ =>
    let part := alignUp 512 (denseBytes n d.e16 d.p)
    { base with elems := readDense n d.e16 d.p bs ++ readDense n d.e16 d.p (bs.drop part) }

/-- Nibbles in pairs (R10). -/
def packNibbles : List Int → List Byte
  | [] => []
  | [x] => [BitVec.ofInt 8 (x % 16)]
  | x :: y :: t => BitVec.ofInt 8 (x % 16 + 16 * (y % 16)) :: packNibbles t

/-- The bytes of a tile (R10). -/
def Tile.bytes (t : Tile) : List Byte :=
  let n := t.rows * t.cols
  match t.kind with
  | 0 => writeDense n t.e16 t.p t.elems
  | 1 => packNibbles t.ints
  | 2 => packBits ((n + 7) / 8) (t.ints.map fun i => decide (i ≠ 0))
  | _ =>
    padTo (alignUp 512 (denseBytes n t.e16 t.p)) (writeDense n t.e16 t.p (t.elems.take n))
      ++ writeDense n t.e16 t.p (t.elems.drop n)

/-- The descriptor word of a tile about to be placed: address and allocation 0. -/
def Tile.desc (t : Tile) (psn : Bool) : Word :=
  Desc.word { addr := 0, rows := t.rows, cols := t.cols, p := t.p, e16 := t.e16, kind := t.kind, psn := psn, alloc := 0,
              rest := 0 }

/-- The element values of a tile, row-major: a mask element is 1.0 or +0.0 (R43), a half-digit its integer (R36). -/
def Tile.vals (t : Tile) : List Val :=
  if t.kind = 1 ∨ t.kind = 2 then t.ints.map Val.ofInt else t.elems.map (Elem.val t.e16 t.p)

/-- A dense tile of values that lie in the plane form (R35). -/
def denseTile (rows cols : Nat) (e16 : Bool) (p : Nat) (vs : List Val) : Tile :=
  { kind := 0, rows := rows, cols := cols, e16 := e16, p := p, elems := vs.map (Elem.ofVal e16 p), ints := [] }

/-- A dense XF tile (R51): E16, P = 8. -/
def xfTile (rows cols : Nat) (vs : List Val) : Tile := denseTile rows cols true 8 vs

/-- A mask tile. -/
def maskTile (rows cols : Nat) (bs : List Bool) : Tile :=
  { kind := 2, rows := rows, cols := cols, e16 := false, p := 0, elems := [], ints := bs.map fun b => if b then 1 else 0 }

/-- Bits of an element in memory (R33, R34). -/
def fmtBits : Nat → Nat
  | 0 => 64
  | 1 => 32
  | 2 => 16
  | 3 => 16
  | 4 => 8
  | 5 => 8
  | 6 => 32
  | 7 => 16
  | 8 => 8
  | 9 => 8
  | 10 => 4
  | 11 => 3
  | 12 => 1
  | _ => 128

/-- TKIND, EW and P of the tile a load makes (R37). -/
def fmtPlane : Nat → Nat × Bool × Nat
  | 0 => (0, true, 7)
  | 1 => (0, false, 3)
  | 2 => (0, false, 2)
  | 3 => (0, false, 1)
  | 4 => (0, false, 1)
  | 5 => (0, false, 1)
  | 6 => (0, false, 4)
  | 7 => (0, false, 2)
  | 8 => (0, false, 1)
  | 9 => (0, false, 1)
  | 10 => (1, false, 0)
  | 11 => (1, false, 0)
  | 12 => (2, false, 0)
  | _ => (0, true, 8)

/-- Whether a format is a float format or XF (R33). -/
def fmtIsFloat (f : Nat) : Bool := decide (f ≤ 5) || decide (f = 13)

/-- A w-bit field as a signed integer. -/
def signedBits (w bits : Nat) : Int := if bits < 2^(w - 1) then bits else (bits : Int) - 2^w

/-- The integer of an element of an integer or BIT format (R33). -/
def fmtInt (f bits : Nat) : Int :=
  if f = 9 ∨ f = 12 then (bits : Int) else signedBits (fmtBits f) bits

/-- The exact value of an element in memory, and whether it is read as a signalling NaN (R33, R37). -/
def fmtVal (f bits : Nat) : Val × Bool :=
  if f = 13 then decodeXf (BitVec.ofNat 80 bits)
  else match floatFields f with
    | some (ew, fw, bias) => decodeFloat f ew fw bias bits
    | none => (Val.ofInt (fmtInt f bits), false)

/-- The plane-form element that a load makes of a float, INT32, INT16, INT8, UINT8 or XF element, and whether NV is set
(R37). -/
def loadElem (f bits : Nat) : Elem × Bool :=
  if f = 13 then
    let w := BitVec.ofNat 80 bits
    match decodeXf w with
    | (.nan, snan) => (nanElem true 8, snan)
    | (.inf s, _) => (⟨s, 0x7FFF, 0⟩, false)
    | (.fin s m _, _) =>
      let e := (w.extractLsb' 64 15).toNat
      (⟨s, (if e = 0 ∧ m ≠ 0 then 1 else e), m⟩, false)
  else match floatFields f with
    | some (ew, fw, bias) =>
      let (_, e16, p) := fmtPlane f
      match decodeFloat f ew fw bias bits with
      | (.nan, snan) => (nanElem e16 p, snan)
      | (.inf s, _) => (⟨s, planeOnes e16, 0⟩, false)
      | (.fin s m e, _) =>
        if (f = 1 ∨ f = 3) ∧ bits / 2^fw % 2^ew = 0 ∧ m ≠ 0 then (⟨s, 1, m⟩, false)
        else (Elem.ofVal e16 p (.fin s m e), false)
    | none =>
      let i := fmtInt f bits
      (⟨decide (i < 0), (match f with | 6 => 158 | 7 => 142 | _ => 134), i.natAbs⟩, false)

/-- A value rounded and stored in a format, with its flags (R41 to R43): the bits of the element. -/
def storeVal (f : Nat) (sat : Bool) (mode : RM) (v : Val) : Nat × Flags :=
  match f, intRange f, floatTarget f with
  | 12, _, _ => v.toBit
  | _, some (lo, hi), _ =>
    let (i, fl) := v.toRange lo hi mode
    ((i % 2^(fmtBits f)).toNat, fl)
  | _, _, some t =>
    let (r, fl) := roundFloat f sat mode t v
    (if f = 13 then (encodeXf r).toNat
     else match floatFields f with
       | some (ew, fw, bias) => encodeFloat f ew fw bias t r
       | none => 0, fl)
  | _, _, none => (0, noFlags)

/-- A signed magnitude, a quotient, rounded and stored in a format (R52). -/
def storeMag (f : Nat) (sat : Bool) (mode : RM) (s : Bool) (x : Mag) : Nat × Flags :=
  match f, intRange f, floatTarget f with
  | 12, _, _ => if s = false ∧ x.st = false ∧ magGe x.m x.e 1 0 = true ∧ magGe 1 0 x.m x.e = true then (1, noFlags) else (1, { nx := true })
  | _, some (lo, hi), _ =>
    let (i, fl) := toIntRange lo hi mode s x
    ((i % 2^(fmtBits f)).toNat, fl)
  | _, _, some t =>
    let (r, fl) := roundFloatMag f sat mode t s x
    (if f = 13 then (encodeXf r).toNat
     else match floatFields f with
       | some (ew, fw, bias) => encodeFloat f ew fw bias t r
       | none => 0, fl)
  | _, _, none => (0, noFlags)

/-- Store x / s in one rounding; no scale stores x (R52). -/
def storeScaled (f : Nat) (sat : Bool) (mode : RM) (scale : Option Val) (x : Val) : Nat × Flags :=
  match scale with
  | none => storeVal f sat mode x
  | some s =>
    if s.isNaN ∨ x.isNaN then storeVal f sat mode .nan
    else if s.isZero then
      if x.isZero then
        let r := storeVal f sat mode .nan
        (r.1, r.2.or flagNV)
      else
        let r := storeVal f sat mode (.inf (x.sign != s.sign))
        (r.1, r.2.or { dz := true })
    else match divVal x s with
      | .inl (v, fl) =>
        let r := storeVal f sat mode v
        (r.1, r.2.or fl)
      | .inr (sg, q) => storeMag f sat mode sg q

/-- How many one bits. -/
def popCount : Nat → Nat → Nat
  | 0, _ => 0
  | k + 1, n => n % 2 + popCount k (n / 2)

/-- One element of the unnormalised 32-point transform, with NV (R53, R158): exact for finite inputs. The rule gives
no sign to a zero: the model's is -0 where every signed term is -0, else +0 (log 63). -/
def hadamardAt (xs : List Val) (i : Nat) : Val × Flags :=
  let ys := xs.zipIdx.map fun (x, j) => if popCount 6 (i &&& j) % 2 = 0 then x else x.neg
  if xs.any Val.isNaN then (.nan, noFlags)
  else
    let pos := ys.any fun y => decide (y = .inf false)
    let neg := ys.any fun y => decide (y = .inf true)
    if pos && neg then (.nan, flagNV)
    else if pos then (.inf false, noFlags)
    else if neg then (.inf true, noFlags)
    else if ys.all Val.isZero then (.zero (ys.all Val.sign), noFlags)
    else
      let sum := ys.foldl (fun acc y => match acc, y with
        | .fin s m e, .fin s' m' e' => addFin s m e s' m' e'
        | a, _ => a) (Val.zero false)
      (match sum with
       | .fin _ 0 g => .fin false 0 g
       | v => v, noFlags)

/-- The 32-point transform of each run of 32 elements (R53). -/
def hadamardRuns : Nat → List Val → List (Val × Flags)
  | 0, _ => []
  | k + 1, vs => ((List.range 32).map fun i => hadamardAt (vs.take 32) i) ++ hadamardRuns k (vs.drop 32)

/-- Whether any of a list of flags is set: their union. -/
def unionFlags (fs : List Flags) : Flags := fs.foldl Flags.or noFlags

end Sys2Proof.Machine
end

