-- ==== Sys2Proof/Machine/Flow.lean ====
section
/-! DEFINITION. Tokens, tiles and Drawers: the tile allocator (R12, R13), raising a section fault (R282, R300), sending
through destinations (R19, R66, R67, R215), and placing a token (R16, R22, R26, R28, R30, R178, R179, R183). -/

namespace Sys2Proof.Machine

/-! ### Faults of a section -/

/-- Whether a section is sealed. -/
def State.isSealed (s : State) (ctx sect : Nat) : Bool :=
  match (s.ctx? ctx).bind fun x => x.section? sect with
  | some t => t.sealed
  | none => false

/-- Raise an unrecoverable fault in a section (R282): the seal is requested, or while the halt line is up it becomes a
pending seal (R300). A section that already seals is not counted again (R297). -/
def State.raise (s : State) (ctx sect kind : Nat) : State :=
  if s.isSealed ctx sect || s.flow.seals.any fun q => q.1 == ctx && q.2.1 == sect then s
  else if s.lineLow ctx then s.modFlow fun w => { w with seals := w.seals ++ [(ctx, sect, kind)] }
  else s.modCtx ctx fun x =>
    if x.pendSeals.any fun q => q.1 == sect then x else { x with pendSeals := x.pendSeals ++ [(sect, kind)] }

/-- Count orphan tokens of a context (R267). -/
def State.orphans (s : State) (ctx n : Nat) : State := s.modCtx ctx fun x => { x with orph := x.orph + n }

/-! ### The tile allocator -/

/-- 512-byte granules of n bytes (R12). -/
def granules (n : Nat) : Nat := (n + 511) / 512

/-- Whether a run of granules is free. -/
def runFree (as : List Alloc) (base n : Nat) : Bool :=
  decide (base + n ≤ 4608) && as.all fun a => decide (a.base + a.len ≤ base ∨ base + n ≤ a.base)

/-- The lowest free run of n granules (R12): the first free run starts at 0 or at the end of an allocation. -/
def firstFit (as : List Alloc) (n : Nat) : Option Nat :=
  ((0 :: as.map fun a => a.base + a.len).filter fun b => runFree as b n).min?

/-- The lowest allocation record index not in use (log 16). -/
def freeIndex (as : List Alloc) : Nat → Nat → Nat
  | 0, i => i
  | k + 1, i => if as.any fun a => a.idx == i then freeIndex as k (i + 1) else i

/-- The allocations of a core. -/
def State.allocsOf (s : State) (core : Nat) : List Alloc := s.flow.allocs.filter fun a => a.core == core

/-- Allocate n bytes on a core for a context with one reference, its bytes undefined (R12): the record. -/
def State.allocate (s : State) (core ctx n : Nat) : Option (State × Alloc) :=
  let as := s.allocsOf core
  let g := granules n
  (firstFit as g).map fun b =>
    let a : Alloc := { core := core, idx := freeIndex as 4608 0, base := b, len := g, refs := 1, ctx := ctx }
    ((s.modFlow fun w => { w with allocs := w.allocs ++ [a] }).havoc (scratchKey core (512 * b)) (512 * g), a)

/-- Add references to an allocation (R13). -/
def State.addRefs (s : State) (core idx n : Nat) : State :=
  s.modFlow fun w => { w with allocs := modify (fun a => a.core == core && a.idx == idx) (fun a => { a with refs := a.refs + n }) w.allocs }

/-- Drop one reference; at 0 the granules return to the allocator (R13 rule 4). -/
def State.release (s : State) (core idx : Nat) : State :=
  s.modFlow fun w => { w with
    allocs := (modify (fun a => a.core == core && a.idx == idx) (fun a => { a with refs := a.refs - 1 }) w.allocs).filter
      fun a => !(a.core == core && a.idx == idx && a.refs == 0) }

/-- The allocation a token's tile lies in. -/
def Token.alloc? (t : Token) : Option Nat :=
  if t.kind = 0 ∨ t.kind = 5 then some (Desc.ofWords t.w0 t.w1).alloc else none

/-- Drop the reference that a token holds on its tile at a core. -/
def State.dropTile (s : State) (core : Nat) (t : Token) : State :=
  match t.alloc? with
  | some i => s.release core i
  | none => s

/-- Drop the tiles of several tokens. -/
def State.dropTiles (s : State) (core : Nat) (ts : List Token) : State := ts.foldl (fun s t => s.dropTile core t) s

/-- The byte ranges of a tile's planes from its address (R10). -/
def planeRanges (d : Desc) : List (Nat × Nat) :=
  let n := d.rows * d.cols
  let sb := (n + 7) / 8
  let part (o : Nat) : List (Nat × Nat) :=
    (o, sb) :: (List.range ((if d.e16 then 2 else 1) + d.p)).map fun i => (o + alignUp 16 sb + i * alignUp 16 n, n)
  match d.kind with
  | 0 => part 0
  | 1 => [(0, (n + 1) / 2)]
  | 2 => [(0, sb)]
  | _ => part 0 ++ part (alignUp 512 (denseBytes n d.e16 d.p))

/-- Write the planes of a tile at its descriptor's address; the bytes between planes stay as they are (R10, R12). -/
def State.placeTile (s : State) (core : Nat) (d : Desc) (bs : List Byte) : State :=
  if bs.isEmpty then s
  else (planeRanges d).foldl (fun s r => s.write (scratchKey core (d.addr + r.1)) ((bs.drop r.1).take r.2)) s

/-- The bytes of a tile at a core. -/
def State.tileBytes (s : State) (core : Nat) (d : Desc) : List Byte := s.read (scratchKey core d.addr) d.bytes

/-- The tile of a token at a core. -/
def State.tile (s : State) (core : Nat) (t : Token) : Tile :=
  let d := Desc.ofWords t.w0 t.w1
  readTile d (s.tileBytes core d)

/-- Whether a token's tile has a byte with an uncorrectable ECC error (R282). -/
def State.tileEcc (s : State) (core : Nat) (t : Token) : Bool :=
  match t.alloc? with
  | some _ =>
    let d := Desc.ofWords t.w0 t.w1
    (planeRanges d).any fun r => s.eccHit (scratchKey core (d.addr + r.1)) r.2
  | none => false

/-- Allocate and write a new tile with one reference, before a work area of some granules (R143): its descriptor word with address and
allocation filled in (R72). -/
def State.newTile (s : State) (core ctx area : Nat) (desc : Word) (bs : List Byte) : Option (State × Desc) :=
  let d := Desc.ofWords desc 0
  (s.allocate core ctx (if area = 0 then d.bytes else 512 * (granules d.bytes + area))).map fun (s', a) =>
    let d' := { d with addr := 512 * a.base, alloc := a.idx }
    (s'.placeTile core d' bs, d')

/-! ### Sending -/

/-- Count a token sent by an engine: the state and the count before (R15). -/
def State.nextSeq (s : State) (core : Nat) (eng : Eng) : State × Nat :=
  let cur := ((s.flow.seqs.find? fun q => q.1 == core && q.2.1 == eng).map (·.2.2)).getD 0
  (s.modFlow fun w => { w with
    seqs := upsert (fun q => q.1 == core && q.2.1 == eng) (core, eng, (cur + 1) % 65536) w.seqs }, cur)

/-- A token for another device becomes a packet (R327). -/
def State.toFabric (s : State) (nt : NetTok) (dev : Nat) : State := s.sendPacket nt.srcCore nt.tok.ctx dev 2 nt.tok.psn (.token nt)

/-- A token for another device waits behind refused ones of its source and destination, or becomes a packet (R293, R327). -/
def State.sendAway (s : State) (nt : NetTok) (dev : Nat) : State :=
  if s.fabric.refused.any fun q => q.srcCore == nt.srcCore && q.toDev == nt.toDev && q.tok.core == nt.tok.core then
    s.modFabric fun f => { f with refused := f.refused ++ [nt] }
  else s.toFabric nt dev

/-- Hand a token to the network (R17). -/
def State.launchTok (s : State) (nt : NetTok) : State := s.modFlow fun w => { w with net := w.net ++ [nt] }

/-- A destination entry as DSET and GLOAD accept it (R66): VALID, a DEV of 0 and a core of the device where LOCAL, no port 3, and
reserved bits of 0. The notes "0 when …" of CORE, SLOT and GRP are no "must": a field that is not used rejects nothing (log 56). -/
def entryOk (e : Word) : Bool :=
  e.getLsbD 63 && (!e.getLsbD 62 || ((e.extractLsb' 44 18) == 0 && decide ((e.extractLsb' 35 9).toNat ≤ 383)))
    && (e.extractLsb' 22 2) != 3 && (e.extractLsb' 0 9) == 0

/-- The token that a firing's result makes for a target (R15, R28, R70). -/
def targetTok (f : Firing) (core : Nat) (eng : Eng) (slot port kind : Nat) (psn : Bool) (seq col : Nat) (tag : BitVec 32)
    (w0 w1 : Word) : Token :=
  { core := core, eng := eng, slot := slot, port := port, ctx := f.ctx, col := col, kind := kind, sect := f.sect,
    psn := psn, seq := seq, tag := tag, w0 := w0, w1 := w1 }

/-- Send one token to one core: a tile for this core shares the sender's tile and takes a reference; a tile for another
core, or a multicast copy, takes the bytes along (R13 rule 5, R20, R215). -/
def State.sendTo (s : State) (f : Firing) (t : Token) (copy : Bool) (strm : Nat) (dev : Option Nat) : State :=
  let isTile := decide (t.kind = 0 ∨ t.kind = 5)
  let shares := isTile && !copy && dev.isNone && t.core == f.core
  let body := if isTile && !shares then some (s.tileBytes f.core (Desc.ofWords t.w0 t.w1)) else none
  let s := if shares then (match t.alloc? with | some i => s.addRefs f.core i 1 | none => s) else s
  let nt : NetTok := { srcCore := f.core, srcEng := f.eng, tok := t, body := body, fromDev := none, toDev := dev, strm := strm }
  match dev with
  | some d => s.sendAway nt d
  | none => s.launchTok nt

/-- Whether another context owns the router-table entry of a context's group (R215; log 55). -/
def State.foreignGroup (s : State) (ctx grp : Nat) : Bool := s.flow.foreign.contains (ctx, grp)

/-- The driver loads the router-table entry of a context's group (R170, R215; log 55). -/
def State.loadRouter (s : State) (ctx grp : Nat) (foreign : Bool) : State :=
  s.modFlow fun w => { w with
    foreign := (w.foreign.filter fun q => q != (ctx, grp)) ++ if foreign then [(ctx, grp)] else [] }

/-- Send through one 64-bit destination entry (R66, R67, R215); a multicast counts as one token sent, all its copies under one
SEQ (log 56). `own` says that a multicast's copy for this core shares the
sender's tile (R276). -/
def State.sendEntry (s : State) (f : Firing) (own : Bool) (e : Word) (kind : Nat) (psn : Bool) (col : Nat) (tag : BitVec 32) (w0 w1 : Word) :
    State :=
  if e.getLsbD 63 = false then (s.orphans f.ctx 1).raise f.ctx f.sect 11
  else
    let eng := engOfCode (e.extractLsb' 33 2).toNat
    let slot := (e.extractLsb' 24 9).toNat
    let port := (e.extractLsb' 22 2).toNat
    let strm := (e.extractLsb' 9 4).toNat
    let dev := (e.extractLsb' 44 18).toNat
    if e.getLsbD 21 then
      let grp := (e.extractLsb' 13 8).toNat
      match s.ctx? f.ctx with
      | none => s
      | some x =>
        match x.groups.find? fun g => g.1 == grp with
        | none => s.raise f.ctx f.sect 12
        | some (_, members) =>
          if s.foreignGroup f.ctx grp then (s.orphans f.ctx 1).raise f.ctx f.sect 13
          else if members = 0 then s.modCtx f.ctx fun x => { x with empty := true }
          else
            let (s, seq) := s.nextSeq f.core f.eng
            let cs := (maskCores members).filter fun c => !(c == f.core && x.excl.getLsbD grp)
            cs.foldl (fun s c => s.sendTo f (targetTok f c eng slot port kind psn seq col tag w0 w1) (!(own && c == f.core)) strm none) s
    else
      let (s, seq) := s.nextSeq f.core f.eng
      let core := (e.extractLsb' 35 9).toNat
      let t := targetTok f core eng slot port kind psn seq col tag w0 w1
      if e.getLsbD 62 || dev == s.devId then s.sendTo f t false strm none else s.sendTo f t false strm (some dev)

/-- The entry of an engine's destination table for a context (R66). -/
def State.dest (s : State) (core ctx : Nat) (eng : Eng) (idx : Nat) : Word :=
  ((s.flow.dests.find? fun d => d.core == core && d.ctx == ctx && d.eng == eng && d.idx == idx).map (·.entry)).getD 0

/-- Send a result to one destination code (R19, R28). -/
def State.sendCode (s : State) (f : Firing) (code kind : Nat) (psn : Bool) (col : Nat) (tag : BitVec 32) (w0 w1 : Word) : State :=
  if code = 0 then s
  else if code = 127 then
    let (s, seq) := s.nextSeq f.core f.eng
    s.sendTo f (targetTok f f.core .c 0 0 kind psn seq col tag w0 w1) false 0 none
  else s.sendEntry f false (s.dest f.core f.ctx f.eng code) kind psn col tag w0 w1

/-- Send one output of a firing (R19, R71). -/
def State.sendOut (s : State) (f : Firing) (o : Out) : State :=
  let each (s : State) (kind : Nat) (psn : Bool) (w0 w1 : Word) : State :=
    o.codes.foldl (fun s c => s.sendCode f c kind psn o.col o.tag w0 w1) s
  match o.val with
  | .scalar w poison => each s (if poison then 6 else 1) poison w 0
  | .newTile _ _ _ => s
  | .tile d d1 poison => each s (if poison then 5 else 0) poison (setBit d 43 poison) d1
  | .forward t => each s t.kind t.psn t.w0 t.w1
  | .pred b => each s 2 false (if b then 1 else 0) 0
  | .eos => each s 3 false 0 0
  | .errorEos => each s 4 false 0 0
  | .multicast e t => s.sendEntry f true e t.kind t.psn o.col o.tag t.w0 t.w1

/-! ### Placing a token -/

/-- The virtual channel into a core that a token waits on (R28, R179): predicates; what comes over the network; or one local
engine's own tokens, which the model gives a channel apart (log 56). -/
def NetTok.lane (nt : NetTok) : Nat × Nat :=
  if nt.tok.kind = 2 then (nt.tok.core, 0)
  else if nt.fromDev.isSome || nt.srcCore != nt.tok.core || nt.body.isSome then (nt.tok.core, 1)
  else (nt.tok.core, 2 + engCode nt.srcEng)

/-- Whether an operator slot declares a port (R21). -/
def Slot.declares (t : Slot) (port : Nat) : Bool :=
  let f := wordFields t.word
  match port with
  | 0 => f.declA
  | 1 => f.declB
  | 2 => opTakesP (wordOp t.word)
  | _ => false

/-- The token of a port in a Drawer. -/
def Drawer.port (d : Drawer) : Nat → Option Token
  | 0 => d.a
  | 1 => d.b
  | _ => d.p

/-- Put a token into a Drawer. -/
def Drawer.put (d : Drawer) (port : Nat) (t : Token) : Drawer :=
  match port with
  | 0 => { d with a := some t }
  | 1 => { d with b := some t }
  | _ => { d with p := some t }

/-- Whether a token is an EOS. -/
def isEos : Option Token → Bool
  | some t => t.kind == 3
  | none => false

/-- Whether a Drawer's declared data ports all hold EOS (R26). -/
def Drawer.allEos (d : Drawer) (t : Slot) : Bool :=
  (t.declares 0 || t.declares 1) && (!t.declares 0 || isEos d.a) && (!t.declares 1 || isEos d.b)

/-- Whether a Drawer is matched (R22, R26). -/
def Drawer.matched (d : Drawer) (t : Slot) : Bool :=
  d.allEos t || ((!t.declares 0 || d.a.isSome) && (!t.declares 1 || d.b.isSome) && (!t.declares 2 || d.p.isSome))

/-- The key of a Drawer. -/
def Drawer.keyIs (d : Drawer) (core ctx : Nat) (eng : Eng) (slot col : Nat) : Bool :=
  d.core == core && d.ctx == ctx && d.eng == eng && d.slot == slot && d.col == col

/-- Put a matched Drawer into its engine's ready order (R23). -/
def State.toReady (s : State) (d : Drawer) : State :=
  s.modFlow fun w => { w with
    ready := w.ready ++ [{ core := d.core, ctx := d.ctx, eng := d.eng, slot := d.slot, col := d.col, a := d.a, b := d.b,
                           p := d.p, overflow := d.overflow, seq := w.matchSeq, ck := s.ck, since := 0, got := none,
                           cont := false }]
    matchSeq := w.matchSeq + 1 }

/-- Unmatched Drawers in an engine's own store. -/
def State.engineDrawers (s : State) (core : Nat) (eng : Eng) : Nat :=
  (s.flow.drawers.filter fun d => d.core == core && d.eng == eng && d.overflow.isNone).length

/-- The places of a core's overflow drawers in use: by unmatched Drawers, and by matched ones not yet read back at issue (R178). -/
def State.overflowPlaces (s : State) (core : Nat) : List Nat :=
  (s.flow.drawers.filterMap fun d => if d.core == core then d.overflow else none)
    ++ (s.flow.ready ++ s.flow.cwait).filterMap fun r => if r.core == core then r.overflow else none

/-- Overflow drawers of a core in use (R178). -/
def State.overflowInUse (s : State) (core : Nat) : Nat := (s.overflowPlaces core).length

/-- The lowest free place among a core's overflow drawers (log 74). -/
def State.freeOverflow (s : State) (core : Nat) : Nat :=
  let used := s.overflowPlaces core
  ((List.range 512).find? fun i => !used.contains i).getD 0

/-- Where overflow drawer n of a core lies: 128 bytes in the top 256 KiB of its quad's bank (R178, R195). -/
def drawerPlace (core n : Nat) : Nat := 0x800300000000 + core / 4 * 2^20 + 0xC0000 + core % 4 * 0x10000 + 128 * n

/-- A Drawer that stands among a core's overflow drawers takes a token: the bytes of its place change to a form that the spec does not
give (R195; log 14). -/
def State.fillDrawer (s : State) (core : Nat) (place : Option Nat) : State :=
  match place with
  | some n => s.havoc (drawerPlace core n) 128
  | none => s

/-- Open a new Drawer for a token, in the engine's store or in overflow; none when both are full (R178, R179). -/
def State.newDrawer? (s : State) (core ctx : Nat) (eng : Eng) (slot col : Nat) : Option Drawer :=
  let d (o : Option Nat) : Drawer :=
    { core := core, ctx := ctx, eng := eng, slot := slot, col := col, a := none, b := none, p := none, overflow := o }
  if s.engineDrawers core eng < 256 then some (d none)
  else if s.overflowInUse core < 512 then some (d (some (s.freeOverflow core)))
  else none

/-- Put predicate p into the first Drawer of its key, each later predicate moving up one Drawer; the predicate left over
opens a Drawer (R26). -/
def shiftPred (key : Drawer → Bool) (p : Token) : List Drawer → List Drawer × Option Token
  | [] => ([], some p)
  | d :: t =>
    if key d then
      match d.p with
      | none => ({ d with p := some p } :: t, none)
      | some q =>
        let (t', r) := shiftPred key q t
        ({ d with p := some p } :: t', r)
    else
      let (t', r) := shiftPred key p t
      (d :: t', r)

/-- Move the first matched Drawer of a key to the ready order; the predicate of an EOS match stays behind (R22, R26). -/
def State.settle (s : State) (t : Slot) (col : Nat) : Nat → State
  | 0 => s
  | k + 1 =>
    let key (d : Drawer) : Bool := d.keyIs t.core t.ctx t.eng t.slot col
    match s.flow.drawers.findIdx? fun d => key d && d.matched t with
    | none => s
    | some i =>
      match s.flow.drawers[i]? with
      | none => s
      | some d =>
        let before := s.flow.drawers.take i
        let after := s.flow.drawers.drop (i + 1)
        if d.allEos t then
          let s := { s with flow := { s.flow with drawers := before ++ after } }
          match d.p with
          | none => s.toReady d
          | some p =>
            let (after', rest) := shiftPred key p after
            let moved (s : State) (ds : List Drawer) : State := ds.foldl (fun s d => s.fillDrawer t.core d.overflow) s
            let s := (moved s (after'.filter key)).modFlow fun w => { w with drawers := before ++ after' }
            let u := s.toReady { d with p := none }
            match rest with
            | none => State.settle u t col k
            | some q =>
              -- The predicate left over opens a Drawer; with none free it takes the place that the EOS firing leaves.
              match u.newDrawer? t.core t.ctx t.eng t.slot col with
              | some n => State.settle ((u.fillDrawer t.core n.overflow).modFlow fun w => { w with drawers := w.drawers ++ [n.put 2 q] }) t col k
              | none =>
                let u := s.toReady { d with p := none, overflow := none }
                State.settle ((u.fillDrawer t.core d.overflow).modFlow fun w => { w with
                  drawers := w.drawers ++ [{ d with a := none, b := none, p := some q }] }) t col k
        else { s with flow := { s.flow with drawers := before ++ after } }.toReady d

/-- Whether EOS has passed a port with this key (R26). -/
def CoreCtx.eosPassed (x : CoreCtx) (eng : Eng) (slot col port : Nat) : Bool :=
  x.eosSeen.any fun q => q.1 == eng && q.2.1 == slot && q.2.2.1 == col && q.2.2.2 == port

/-- Place a token in a Drawer of a loaded, running section (R16, R22, R26, R183); none when it must wait at the
ingress. A data or poison token for a MERGE's port a or b is matched alone, in a Drawer of its own. The tile of a discarded token is released. -/
def State.placeDrawer (s : State) (x : CoreCtx) (t : Slot) (tok : Token) : Option State :=
  let bad (s : State) (kind : Nat) : State := ((s.orphans tok.ctx 1).dropTile tok.core tok).raise tok.ctx t.sect kind
  if tok.port = 3 ∨ tok.kind = 7 ∨ ((tok.kind = 2) ≠ (tok.port = 2)) then some (bad s 6)
  else if tok.port ≠ 2 ∧ tok.kind ≠ 3 ∧ x.eosPassed t.eng t.slot tok.col tok.port = true then some (bad s 7)
  else
    let seen (s : State) : State :=
      if tok.kind = 3 then s.modCctx x.core x.ctx fun y => { y with eosSeen := y.eosSeen ++ [(t.eng, t.slot, tok.col, tok.port)] }
      else s
    if wordOp t.word = 0x82 ∧ tok.kind ≠ 3 ∧ tok.port ≠ 2 then
      (s.newDrawer? t.core t.ctx t.eng t.slot tok.col).map fun d => (s.fillDrawer t.core d.overflow).toReady (d.put tok.port tok)
    else
      let key (d : Drawer) : Bool := d.keyIs t.core t.ctx t.eng t.slot tok.col
      match s.flow.drawers.findIdx? fun d => key d && (d.port tok.port).isNone with
      | some i =>
        let s := (s.fillDrawer t.core ((s.flow.drawers[i]?).bind (·.overflow))).modFlow fun w =>
          { w with drawers := w.drawers.modify i fun d => d.put tok.port tok }
        some ((seen s).settle t tok.col (s.flow.drawers.length + 1))
      | none =>
        match s.newDrawer? t.core t.ctx t.eng t.slot tok.col with
        | none => none
        | some d =>
          let s := (s.fillDrawer t.core d.overflow).modFlow fun w => { w with drawers := w.drawers ++ [d.put tok.port tok] }
          some ((seen s).settle t tok.col (s.flow.drawers.length + 1))

/-- What becomes of a token that reaches a core (R30). -/
inductive Arrival where
  | stray
  | hold
  | orphan
  | invalid
  | control
  | drawer (x : CoreCtx) (t : Slot)
deriving DecidableEq, Repr

/-- Whether a section's slots on a core take no more tokens: not loaded, spent, finished or sealed (R162, R297). -/
def State.deadOn (s : State) (x : CoreCtx) (sect : Nat) : Bool :=
  match (s.ctx? x.ctx).bind fun y => y.section? sect with
  | none => true
  | some t =>
    t.finished || t.sealed || match x.sects.find? fun q => q.sect == sect with
      | none => true
      | some q => q.spent

/-- The row of R30 that a token falls under, for a token of this device or one already let in by its hub; a context that `dolz` holds
takes none (R193). -/
def State.arrival (s : State) (tok : Token) : Arrival :=
  match s.ctx? tok.ctx with
  | none => .stray
  | some x =>
    if x.phase = .lost then .orphan
    else if x.phase = .saved ∨ x.watch.held.isSome = true then .hold
    else match s.cctx? tok.core tok.ctx with
      | none => .orphan
      | some y =>
        if y.saved then .hold
        else if tok.eng = .c then (if s.owner tok.core = some tok.ctx then .control else .invalid)
        else match s.slot? tok.core tok.ctx tok.eng tok.slot with
          | none => .orphan
          | some t => if s.deadOn y t.sect then .orphan else .drawer y t

/-- Header word 0 of a token (R70). -/
def Token.h0 (t : Token) : Word :=
  BitVec.ofNat 64 (t.core % 512 + engCode t.eng * 2^9 + t.slot % 512 * 2^11 + t.port % 4 * 2^20 + t.ctx % 256 * 2^22
    + t.col % 64 * 2^30 + t.kind % 8 * 2^36 + t.sect % 256 * 2^39 + t.psn.toNat * 2^47 + t.seq % 65536 * 2^48)

/-- Header word 1 of a token (R70). -/
def Token.h1 (t : Token) : Word := t.tag.zeroExtend 64

/-- A token of two header words and two payload words (R70, R71). -/
def Token.ofWords (h0 h1 w0 w1 : Word) : Token :=
  { core := (h0.extractLsb' 0 9).toNat, eng := engOfCode (h0.extractLsb' 9 2).toNat, slot := (h0.extractLsb' 11 9).toNat,
    port := (h0.extractLsb' 20 2).toNat, ctx := (h0.extractLsb' 22 8).toNat, col := (h0.extractLsb' 30 6).toNat,
    kind := (h0.extractLsb' 36 3).toNat, sect := (h0.extractLsb' 39 8).toNat, psn := h0.getLsbD 47,
    seq := (h0.extractLsb' 48 16).toNat, tag := h1.extractLsb' 0 32, w0 := w0, w1 := w1 }

/-- Place the copy of a tile that came in a packet: the token with its new descriptor, or none without room (R13, R14). -/
def State.unpack (s : State) (nt : NetTok) : Option (State × Token) :=
  match nt.body with
  | none => some (s, nt.tok)
  | some bs =>
    (s.newTile nt.tok.core nt.tok.ctx 0 nt.tok.w0 bs).map fun (s', d) => (s', { nt.tok with w0 := d.word, w1 := 0 })

/-- Whether a tile packet must ask the allocator for its run: it will be placed, not discarded (R14, R30). -/
def State.wantsRoom (s : State) (nt : NetTok) : Bool :=
  nt.body.isSome && match s.arrival nt.tok with
    | .control | .drawer _ _ => true
    | _ => false

/-- Deliver a token: none when it must wait (R28, R30, R179). `owns` says that its tile, if it has one, lies in this core's
scratchpad; a packet that is discarded has no tile here. R16's check of the port is of a receiving operator: a token for a control core has
none, and joins its receive queue whatever its PORT (log 82). -/
def State.place (s : State) (tok : Token) (owns : Bool) : Option State :=
  let drop (s : State) : State := if owns then s.dropTile tok.core tok else s
  match s.arrival tok with
  | .stray => some (drop (s.record (.stray tok.h0 tok.h1)))
  | .hold => none
  | .orphan => some (drop (s.orphans tok.ctx 1))
  | .invalid => some ((drop (s.orphans tok.ctx 1)).raise tok.ctx tok.sect 11)
  | .control =>
    let c := s.ctl tok.core
    if 64 ≤ c.rq.length then none else some (s.setCtl { c with rq := c.rq ++ [tok] })
  | .drawer x t => s.placeDrawer x t tok

/-- Two tokens in flight from one engine to one destination (R17). -/
def NetTok.sameRoute (x y : NetTok) : Bool :=
  x.fromDev == y.fromDev && x.srcCore == y.srcCore && x.srcEng == y.srcEng && x.tok.core == y.tok.core
    && x.tok.eng == y.tok.eng && x.tok.slot == y.tok.slot && x.tok.port == y.tok.port

/-- Whether a token at the ingress must be placed before a later one: they share a channel (R14, R28, R179), or go from one engine
to one destination (R17). A predicate and a token of the data network never hold each other (R216; log 75). -/
def NetTok.precedes (x y : NetTok) : Bool :=
  x.lane == y.lane || (x.sameRoute y && decide ((x.tok.kind = 2) = (y.tok.kind = 2)))

/-- Whether an earlier token at the ingress must be placed first. -/
def State.laneBusy (s : State) (nt : NetTok) : Bool := s.flow.ingress.any fun q => q.precedes nt

/-- A token reaches the ingress of its core: a tile packet asks the allocator for room (R14); any other token is placed,
or waits at the ingress. -/
def State.ingress (s : State) (nt : NetTok) : State :=
  if s.laneBusy nt then s.modFlow fun w => { w with ingress := w.ingress ++ [nt] }
  else if s.wantsRoom nt then
    s.modFlow fun w => { w with
      ingress := w.ingress ++ [nt]
      reqs := w.reqs ++ [{ core := nt.tok.core, bytes := (Desc.ofWords nt.tok.w0 0).bytes, who := .packet nt }] }
  else
    match s.place nt.tok nt.body.isNone with
    | some s' => s'
    | none => s.modFlow fun w => { w with ingress := w.ingress ++ [nt] }

end Sys2Proof.Machine
end

