-- ==== Sys2Proof/Machine/Objects.lean ====
section
/-! DEFINITION. Object records and element accesses: translation (R204), coordinates (R129, R130), layouts and residency
(R203, R205, R206), relocation and shadows (R208, R210), loading and storing elements (R37, R52, R53, R131, R132). -/

namespace Sys2Proof.Machine

/-! ### Records -/

/-- The record of a handle; an unlisted one is in its reset state, invalid (R199). -/
def State.obj? (s : State) (h : Nat) : Option ObjRec := (s.msys.objs.find? fun q => q.1 == h).map (·.2)

/-- The 1,024 bits of a record (R199). -/
def ObjRec.bits (r : ObjRec) : BitVec 1024 :=
  let list (n lo : Nat) (xs : List Nat) : Nat := ((xs.take 6).zipIdx.map fun q => q.1 % 2^n * 2^(lo + n * q.2)).sum
  BitVec.ofNat 1024 (r.st % 8 + r.ppend.toNat * 2^3 + r.fmt % 16 * 2^4 + r.rank % 8 * 2^8 + r.layout % 4 * 2^11 + r.perm.toNat * 2^13
    + r.rm % 8 * 2^17 + r.sat.toNat * 2^20 + r.had.toNat * 2^21 + r.gsz % 4 * 2^22 + r.kind % 8 * 2^24 + r.gen % 2^16 * 2^32
    + r.igen % 2^16 * 2^48 + r.ctx % 2^8 * 2^64 + r.owner % 2^18 * 2^72 + r.base % 2^48 * 2^128 + r.shadow % 2^48 * 2^192
    + list 32 256 r.shape + list 40 448 r.stride)

/-- Write a record at its place in the table (R201). -/
def State.writeRecord (s : State) (h : Nat) (r : ObjRec) : State := s.write (s.msys.table + 128 * h) (leBytes 128 r.bits.toNat)

/-- One update of a record, seen whole by every translation (R202), and of its place in the table (R201; log 66). -/
def State.setObj (s : State) (h : Nat) (r : ObjRec) : State :=
  (s.modMsys fun m => { m with objs := upsert (fun q => q.1 == h) (h, r) m.objs }).writeRecord h r

/-- Management configures the object-record table: its base and its number of records, up to 2^24 (R201); the records stand at the new
place (log 66). -/
def State.configureTable (s : State) (base count : Nat) : State :=
  if base % 4096 ≠ 0 ∨ 2^24 < count ∨ 0x800000000000 ≤ base ∨ assigned base (128 * count) = false then s
  else
    let s := s.modMsys fun m => { m with table := base, objCount := count }
    (s.msys.objs.filter fun q => decide (q.1 < count)).foldl (fun s q => s.writeRecord q.1 q.2) s

/-- Management marks a page of the table present or absent (R201). -/
def State.markPage (s : State) (page : Nat) (present : Bool) : State :=
  s.modMsys fun m => { m with
    absentPages := (m.absentPages.filter fun q => q != page) ++ if present then [] else [page] }

/-- What a translation gives (R204): an unrecoverable fault, a recoverable one with a generation, or the record. -/
inductive Xlate where
  | fault (kind : Nat)
  | halt (kind gen : Nat)
  | ok (r : ObjRec)
deriving DecidableEq, Repr

/-- The checks of a record for a context, a KIND and a permission bit of PERM: 0 read, 1 write, 2 atomic (R204). -/
def ObjRec.permits (r : ObjRec) (ctx kind perm : Nat) : Xlate :=
  if r.st = 0 ∨ r.kind ≠ kind then .fault 3
  else if r.ctx ≠ 255 ∧ r.ctx ≠ ctx then .fault 3
  else if r.perm.getLsbD perm = false then (if r.ppend then .halt 34 r.gen else .fault 3)
  else .ok r

/-- Translate a handle whose record is given (R204): a handle outside the table, an absent page, then the record's own checks. -/
def State.translateTo (s : State) (h : Nat) (r : Option ObjRec) (ctx kind perm : Nat) : Xlate :=
  if h = 0 ∨ s.msys.objCount ≤ h then .fault 3
  else if s.msys.absentPages.contains (h / 32) then .halt 33 0
  else match r with
    | none => .fault 3
    | some r => r.permits ctx kind perm

/-- Translate a handle for a context, a KIND and a permission bit of PERM (R204). -/
def State.translate (s : State) (ctx h kind perm : Nat) : Xlate := s.translateTo h (s.obj? h) ctx kind perm

/-- A replayed access translates again (R207): none when it is not performed. -/
def State.retranslate (s : State) (h gen : Nat) : Option ObjRec :=
  match s.obj? h with
  | some r => if r.st ≠ 0 ∧ (r.gen + 65536 - gen) % 65536 ≤ (r.gen + 65536 - r.igen) % 65536 then some r else none
  | none => none

/-- Raise or lower the in-flight count of an object's generation (R208). -/
def State.inflight (s : State) (h gen : Nat) (up : Bool) : State :=
  if h = 0 then s
  else
    let cur := ((s.msys.inflight.find? fun q => q.1 == (h, gen)).map (·.2)).getD 0
    s.modMsys fun m => { m with
      inflight := (upsert (fun q => q.1 == (h, gen)) ((h, gen), if up then cur + 1 else cur - 1) m.inflight).filter fun q => q.2 != 0 }

/-- The in-flight count of an object's generation. -/
def State.inflightOf (s : State) (h gen : Nat) : Nat := ((s.msys.inflight.find? fun q => q.1 == (h, gen)).map (·.2)).getD 0

/-! ### Coordinates -/

/-- Dimension d of a coordinate or extent list (1 is the last). -/
def dim (x : List Nat) (d : Nat) : Nat := x.getD (d - 1) 0

/-- Whether a coordinate lies inside the shape (R129). -/
def ObjRec.inShape (r : ObjRec) (x : List Nat) : Bool :=
  (List.range 6).all fun i => if i < r.rank then decide (x.getD i 0 < r.shape.getD i 0) else x.getD i 0 == 0

/-- The base coordinate from the tag terms of an access word (R129); none for DIM 7. `field` reads a tag field. -/
def termCoord (field : Nat → Nat) (lit0 : Word) (rowUnit colUnit : Nat) (base : List Nat) : Option (List Nat) :=
  (List.range 4).foldl (fun acc f => match acc with
    | none => none
    | some x =>
      let t := (lit0.extractLsb' (36 + 7 * f) 7).toNat
      let d := t / 16
      let st := t % 16
      if d = 0 ∨ st = 0 then some x
      else if d = 7 then none
      else
        let unit := if d = 1 then colUnit else if d = 2 then rowUnit else 1
        some (x.modify (d - 1) fun v => v + field f * st * unit)) (some base)

/-- The coordinate of cell (row, j) of an access, if it is in the shape (R129, R242). -/
def Access.cell (t : Access) (row : Int) (j : Nat) : Option (List Nat) :=
  let x2 : Int := dim t.x 2 + row
  if x2 < 0 then none
  else
    let x := (t.x.set 0 (dim t.x 1 + j)).set 1 x2.toNat
    if t.obj.inShape x then some x else none

/-- The cells of an access in row-major order. -/
def Access.cells (t : Access) : List (Int × Nat) := t.rows.flatMap fun r => (List.range t.cols).map fun j => (r, j)

/-- Whether some cell lies outside the shape. -/
def Access.someOut (t : Access) : Bool := t.cells.any fun c => (t.cell c.1 c.2).isNone

/-- Whether every cell lies outside the shape. -/
def Access.allOut (t : Access) : Bool := t.cells.all fun c => (t.cell c.1 c.2).isNone

/-! ### Layouts (R203) -/

/-- The R10 size of a 64×64 block in the plane form of a format, rounded up to 512 bytes. -/
def planeBlock (fmt : Nat) : Nat :=
  let (k, e16, p) := fmtPlane fmt
  alignUp 512 (tileBytes k 64 64 e16 p)

/-- Bytes of a block of a tiled or plane-form object. -/
def ObjRec.blockBytes (r : ObjRec) : Nat := if r.layout = 2 then planeBlock r.fmt else 512 * fmtBits r.fmt

/-- The sum of coordinates by strides from dimension d up. -/
def strideSum (r : ObjRec) (x : List Nat) (d : Nat) : Nat :=
  ((List.range r.rank).map fun i => if d ≤ i + 1 then x.getD i 0 * r.stride.getD i 0 else 0).sum

/-- The block number of a coordinate and the element's index within the block; a row-major object's index is the element
index from BASE (R203). -/
def ObjRec.blockOf (r : ObjRec) (x : List Nat) : Nat × Nat :=
  if r.layout = 0 then
    let e := strideSum r x 1
    (e / 4096, e)
  else if r.rank = 1 then (dim x 1 / 4096, dim x 1 % 4096)
  else
    let nbj := (dim r.shape 1 + 63) / 64
    (strideSum r x 3 + dim x 2 / 64 * nbj + dim x 1 / 64, dim x 2 % 64 * 64 + dim x 1 % 64)

/-- The pieces of memory that hold element w of a block at an address: first byte, first bit, bits, low piece first. A
plane-form element is its sign, its exponent and its digits, high digit first (R10, R34, R203). -/
def ObjRec.pieces (r : ObjRec) (a w : Nat) : List (Nat × Nat × Nat) :=
  if r.layout = 2 then
    let (k, e16, p) := fmtPlane r.fmt
    if k = 1 then [(a + w / 2, 4 * (w % 2), 4)]
    else if k = 2 then [(a + w / 8, w % 8, 1)]
    else (a + w / 8, w % 8, 1) :: (List.range ((if e16 then 2 else 1) + p)).map fun i => (a + 512 + 4096 * i + w, 0, 8)
  else
    let b := fmtBits r.fmt
    [(a + w * b / 8, w * b % 8, b)]

/-- Where an element lies (R203, R205, R206): its block and pieces, an absent block, or a block at another device. -/
inductive Site where
  | at (pieces : List (Nat × Nat × Nat))
  | absent (block : Nat)
  | remote (block dev : Nat)
deriving DecidableEq, Repr

/-- Bytes of a block of a sparse object (R203). -/
def ObjRec.blockLen (r : ObjRec) : Nat := if r.layout = 0 then 512 * fmtBits r.fmt else r.blockBytes

/-- The site of an element; a store to a shadowed object goes to SHADOW (R210). -/
def State.site (s : State) (r : ObjRec) (store : Bool) (x : List Nat) : Site :=
  let (b, w) := r.blockOf x
  if r.st = 2 then
    let e := s.readWord (r.base + 8 * b)
    let rk := (e.extractLsb' 62 2).toNat
    if rk = 1 then .at (r.pieces (e.extractLsb' 0 48).toNat (if r.layout = 0 then w % 4096 else w))
    else if rk = 2 then .remote b (e.extractLsb' 0 18).toNat
    else .absent b
  else
    let base := if store ∧ r.st = 4 then r.shadow else r.base
    .at (r.pieces (if r.layout = 0 then base else base + b * r.blockBytes) w)

/-- The last byte offset plus one that a tensor object's data reaches from BASE (R239). -/
def ObjRec.footprint (r : ObjRec) : Nat :=
  match r.kind with
  | 1 => 64 + dim r.shape 2 * dim r.shape 1 + 8 * dim r.shape 2
  | 2 => 16
  | 3 => 8 * dim r.shape 1 * dim r.shape 2
  | _ =>
    let x := r.shape.map (· - 1)
    let (b, w) := r.blockOf x
    let ps := r.pieces (if r.layout = 0 then 0 else b * r.blockBytes) w
    (ps.map fun p => p.1 + (p.2.1 + p.2.2 + 7) / 8).max?.getD 0

/-- The number of blocks of a tensor object (R203). -/
def ObjRec.blocks (r : ObjRec) : Nat := (r.blockOf (r.shape.map (· - 1))).1 + 1

/-! ### Bytes of an object under relocation (R208) -/

/-- The relocation that a translated access falls under. -/
def State.reloc? (s : State) (h gen : Nat) : Option Reloc := s.msys.relocs.find? fun q => q.handle == h && q.gen == gen

/-- The old place of a byte moved to the new one. -/
def Reloc.move (q : Reloc) (a : Nat) : Nat := q.newBase + (a - q.oldBase)

/-- Where a byte is read (R208 steps 3 and 7). -/
def State.readPlace (s : State) (h gen a : Nat) : Nat :=
  match s.reloc? h gen with
  | some q => if q.flipped then q.move a else a
  | none => a

/-- Write bytes of an object (R208 steps 4, 5 and 7): at the new place after the flip; before it at the old place, and at
the new place for the units already copied. -/
def State.writeObj (s : State) (h gen a : Nat) (bs : List Byte) : State :=
  match s.reloc? h gen with
  | none => s.write a bs
  | some q =>
    if q.flipped then s.write (q.move a) bs
    else
      let s := s.write a bs
      let mirrored (i : Nat) : Bool :=
        decide (q.oldBase ≤ a + i ∧ a + i < q.oldBase + q.bytes ∧ (a + i - q.oldBase) / q.unit < q.next)
      (bs.zipIdx).foldl (fun s (b, i) => if mirrored i then s.write (q.move (a + i)) [b] else s) s

/-- Read one piece of an element. -/
def State.readPiece (s : State) (h gen : Nat) (p : Nat × Nat × Nat) : Nat :=
  leNat (s.read (s.readPlace h gen p.1) ((p.2.1 + p.2.2 + 7) / 8)) / 2^p.2.1 % 2^p.2.2

/-- Write one piece of an element; a sub-byte element is merged into its bytes (R132). -/
def State.writePiece (s : State) (h gen : Nat) (p : Nat × Nat × Nat) (v : Nat) : State :=
  let n := (p.2.1 + p.2.2 + 7) / 8
  if p.2.1 = 0 ∧ p.2.2 % 8 = 0 then s.writeObj h gen p.1 (leBytes n v)
  else
    let old := leNat (s.read (s.readPlace h gen p.1) n)
    s.writeObj h gen p.1 (leBytes n (old - old / 2^p.2.1 % 2^p.2.2 * 2^p.2.1 + v % 2^p.2.2 * 2^p.2.1))

/-- Whether a piece has an uncorrectable ECC error. -/
def State.pieceEcc (s : State) (h gen : Nat) (p : Nat × Nat × Nat) : Bool :=
  s.eccHit (s.readPlace h gen p.1) ((p.2.1 + p.2.2 + 7) / 8)

/-! ### Elements -/

/-- An element as a load gives it: a dense element, or the integer of a half-digit or mask element. -/
structure Loaded where
  el : Elem := ⟨false, 0, 0⟩
  int : Int := 0
  nv : Bool := false
deriving DecidableEq, Repr

/-- The element of a value of a format's bits (R37). -/
def loadBits (fmt bits : Nat) : Loaded :=
  if (fmtPlane fmt).1 = 0 then
    let (e, nv) := loadElem fmt bits
    { el := e, nv := nv }
  else { int := fmtInt fmt bits }

/-- The element that the values of its pieces make (R37, R203). -/
def ObjRec.ofPieces (r : ObjRec) (vs : List Nat) : Loaded :=
  if r.layout = 2 then
    let (k, e16, _) := fmtPlane r.fmt
    if k = 1 then { int := signedBits 4 (vs.headD 0) }
    else if k = 2 then { int := vs.headD 0 }
    else
      let n := if e16 then 2 else 1
      let ex := if e16 then vs.getD 1 0 % 128 * 256 + vs.getD 2 0 else vs.getD 1 0
      { el := ⟨vs.headD 0 = 1, ex, (vs.drop (n + 1)).foldl (fun a d => a * 256 + d) 0⟩ }
  else loadBits r.fmt (vs.headD 0)

/-- Read an element from its pieces. -/
def State.readElem (s : State) (h : Nat) (r : ObjRec) (ps : List (Nat × Nat × Nat)) : Loaded := r.ofPieces (ps.map (s.readPiece h r.gen))

/-- The pieces' values of an element in its plane form: a half-digit or mask element has one piece (R10, R203). -/
def ObjRec.planes (r : ObjRec) (x : Loaded) : List Nat :=
  let (k, e16, p) := fmtPlane r.fmt
  if k = 0 then
    x.el.s.toNat :: ((if e16 then [x.el.e / 256, x.el.e % 256] else [x.el.e]) ++ (List.range p).map fun i => x.el.d / 2^(8 * (p - 1 - i)) % 256)
  else [(x.int % 16).toNat]

/-- The pieces' values of an element's bits: the bits themselves, or in a plane-form object their plane form (R203). -/
def ObjRec.encoded (r : ObjRec) (bits : Nat) : List Nat := if r.layout = 2 then r.planes (loadBits r.fmt bits) else [bits]

/-- Write the values of an element's pieces. -/
def State.writePieces (s : State) (h : Nat) (r : ObjRec) (ps : List (Nat × Nat × Nat)) (vs : List Nat) : State :=
  (ps.zip vs).foldl (fun s q => s.writePiece h r.gen q.1 q.2) s

/-- Write an element by its bits in the format (R203). -/
def State.writeElem (s : State) (h : Nat) (r : ObjRec) (ps : List (Nat × Nat × Nat)) (bits : Nat) : State := s.writePieces h r ps (r.encoded bits)

/-! ### Elements in packets (R339; log 21) -/

/-- The bytes of each piece of an element in a packet: its bits, or in a plane-form object its planes, which hold the element as it stands
(R203). -/
def ObjRec.wirePieces (r : ObjRec) : List Nat :=
  if r.layout = 2 then (r.pieces 0 0).map fun _ => 1 else [(fmtBits r.fmt + 7) / 8]

/-- The bytes of an element in a packet. -/
def ObjRec.wireSize (r : ObjRec) : Nat := r.wirePieces.sum

/-- The values of an element's pieces as a packet carries them. -/
def ObjRec.toWire (r : ObjRec) (vs : List Nat) : List Byte := (r.wirePieces.zip vs).flatMap fun q => leBytes q.1 q.2

/-- The values of an element's pieces from a packet's bytes. -/
def ObjRec.ofWire (r : ObjRec) (bs : List Byte) : List Nat :=
  if r.layout = 2 then bs.map (·.toNat) else [leNat bs % 2^(fmtBits r.fmt)]

/-- The elements of a packet's bytes, n of them. -/
def ObjRec.wireElems (r : ObjRec) : Nat → List Byte → List (List Byte)
  | 0, _ => []
  | n + 1, bs => bs.take r.wireSize :: r.wireElems n (bs.drop r.wireSize)

/-- The value of a loaded element. -/
def Loaded.val (fmt : Nat) (x : Loaded) : Val :=
  let (k, e16, p) := fmtPlane fmt
  if k = 0 then Elem.val e16 p x.el else Val.ofInt x.int

/-- The pad element (R130): it sets no flag. -/
def Access.padElem (t : Access) : Loaded :=
  let v := (decodeFp64 t.lit1).1
  { loadBits t.obj.fmt (storeVal t.obj.fmt t.obj.sat (RM.ofCode t.mode) v).1 with nv := false }

/-- What a load has read so far, last cell first. -/
structure LoadAcc where
  out : List Loaded := []
  nv : Bool := false
  ecc : Bool := false

/-- One more element read. -/
def LoadAcc.add (acc : LoadAcc) (e : Loaded) (ecc : Bool) : LoadAcc :=
  { out := e :: acc.out, nv := acc.nv || e.nv, ecc := acc.ecc || ecc }

/-- Load cells in order (R131, R206): an element that the device holding its block has answered is that answer's, and a block that is not
in memory here stops the load. -/
def State.loadCells (s : State) (t : Access) (got : List Got) : List (Int × Nat) → LoadAcc → Except Nat LoadAcc
  | [], acc => .ok acc
  | c :: cs, acc =>
    match t.cell c.1 c.2 with
    | none => s.loadCells t got cs { acc with out := t.padElem :: acc.out }
    | some x => match got.find? fun g => g.x == x with
      | some g => s.loadCells t got cs (acc.add (t.obj.ofPieces (t.obj.ofWire g.bytes)) g.poison)
      | none => match s.site t.obj false x with
        | .absent b | .remote b _ => .error b
        | .at ps => s.loadCells t got cs (acc.add (s.readElem t.handle t.obj ps) (ps.any (s.pieceEcc t.handle t.obj.gen)))

/-- The tile that loaded elements make (R37). -/
def loadedTile (fmt rows cols : Nat) (es : List Loaded) : Tile :=
  let (k, e16, p) := fmtPlane fmt
  { kind := k, rows := rows, cols := cols, e16 := e16, p := p,
    elems := if k = 0 then es.map (·.el) else [], ints := if k = 0 then [] else es.map (·.int) }

/-- A cell to store: its place, its value, and the tile's own element where it is copied as it stands (R203). -/
structure StoreCell where
  row : Int
  col : Nat
  val : Val
  orig : Option Loaded

/-- The values of the pieces that a cell stores, with the flags of its conversion: one that is already in the object's plane form is copied
without change and without a flag (R132, R203). -/
def StoreCell.pieces (c : StoreCell) (t : Access) (scale : Option Val) : List Nat × Flags :=
  match c.orig with
  | some o => (t.obj.planes o, noFlags)
  | none =>
    let (bits, g) := storeScaled t.obj.fmt t.obj.sat (RM.ofCode t.mode) scale c.val
    (t.obj.encoded bits, g)

/-- The store scale of lit1 (R132): none when its bits are 0; its reading may set NV (R117). -/
def storeScale (lit1 : Word) : Option Val × Flags :=
  if lit1 = 0 then (none, noFlags)
  else
    let (v, snan) := decodeFp64 lit1
    (some v, if snan then flagNV else noFlags)

/-- Store cells in order (R132, R206, R243): an element that the device holding its block has taken is not stored here, and a block that is
not in memory here stops the store; what was written stays. -/
def storeCells (t : Access) (scale : Option Val) (got : List Got) : List StoreCell → State × Flags → State × Flags × Option Nat
  | [], (s, fl) => (s, fl, none)
  | c :: cs, (s, fl) =>
    match t.cell c.row c.col with
    | none => storeCells t scale got cs (s, fl)
    | some x =>
      let (vs, g) := c.pieces t scale
      if got.any fun q => q.x == x then storeCells t scale got cs (s, fl.or g)
      else match s.site t.obj true x with
        | .absent b | .remote b _ => (s, fl, some b)
        | .at ps => storeCells t scale got cs (s.writePieces t.handle t.obj ps vs, fl.or g)

/-- The Hadamard transform of each row of a tile's values, in runs of 32 (R53). -/
def hadRows (cols : Nat) : Nat → List Val → List (Val × Flags)
  | 0, _ => []
  | k + 1, vs => hadamardRuns (cols / 32) (vs.take cols) ++ hadRows cols k (vs.drop cols)

/-- The cells that a tile stores, of a complex tile its real parts (log 58), each with the flags of its Hadamard store (R53, R132):
an element outside the shape gives its flags too (log 58). A tile that has a plane-form object's own form, with no scale and no
transform, gives its elements as they stand (R203). -/
def tileCells (t : Access) (tl : Tile) : List (StoreCell × Flags) :=
  let (k, e16, p) := fmtPlane t.obj.fmt
  let same := decide (t.obj.layout = 2 ∧ tl.kind = k) && (k != 0 || (tl.e16 == e16 && tl.p == p)) && !t.obj.had && decide (t.lit1 = 0)
  let vs : List (Val × Flags) := if t.obj.had then hadRows tl.cols tl.rows tl.vals else tl.vals.map fun v => (v, noFlags)
  let origs : List (Option Loaded) :=
    if !same then tl.vals.map fun _ => none
    else if k = 0 then tl.elems.map fun e => some { el := e } else tl.ints.map fun i => some { int := i }
  (t.cells.zip (vs.zip origs)).map fun (c, v, o) => ({ row := c.1, col := c.2, val := v.1, orig := o }, v.2)

/-- Elements lo to hi - 1 of a list. -/
def slice {α : Type} (lo hi : Nat) (l : List α) : List α := (l.take hi).drop lo

/-- Store elements lo to hi - 1 of a tile (R132, R223, R243): the state, the flags, and the absent block that stopped it. -/
def State.storeTile (s : State) (t : Access) (tl : Tile) (got : List Got) (lo hi : Nat) : State × Flags × Option Nat :=
  let (sc, f0) := storeScale t.lit1
  let cs := slice lo hi (tileCells t tl)
  storeCells t sc got (cs.map (·.1)) (s, f0.or (unionFlags (cs.map (·.2))))

/-- The payload that SLD and the atomics send of an element (R133). -/
def loadedWord (fmt : Nat) (mode : RM) (x : Loaded) : Word × Flags :=
  if fmtIsFloat fmt then
    match x.val fmt with
    | .nan => (encodeFp64 .nan, noFlags)
    | v =>
      let (r, fl) := roundFloat 0 false mode ⟨53, -1022, 1023, 2^53 - 1⟩ v
      (encodeFp64 r, fl)
  else (BitVec.ofInt 64 (x.val fmt).toInt64.1, noFlags)

/-- ⌈rows·cols·bits/8⌉, the declared bytes (R132). -/
def declaredBytes (fmt rows cols : Nat) : Nat := (rows * cols * fmtBits fmt + 7) / 8

/-- The byte count of one element that SST reports (R134). -/
def elemBytes (fmt : Nat) : Nat := max 1 (fmtBits fmt / 8)

/-- Elements of the scale group of an object (R199). -/
def ObjRec.group (r : ObjRec) : Nat := match r.gsz with | 1 => 32 | 2 => 64 | 3 => 128 | _ => 1

/-! ### Atomic updates (R245) -/

/-- The value operand of an atomic as an object's format reads it (R134, R244). -/
def atomOperand (fmt : Nat) (v : Word) (uns : Bool) : Val × Flags :=
  if uns then (Val.ofInt v.toNat, noFlags)
  else if fmtIsFloat fmt then
    let (x, snan) := decodeFp64 v
    (x, if snan then flagNV else noFlags)
  else (Val.ofInt v.toInt, noFlags)

/-- The new bits of an element, whether ATCS matched, and the flags (R245): `op` is 0 ATAD, 1 ATMN, 2 ATMX, 3 ATXC, 4 ATCS. -/
def atomUpdate (op fmt : Nat) (sat : Bool) (mode : RM) (oldBits : Nat) (v n : Val) : Nat × Bool × Flags :=
  let old := (fmtVal fmt oldBits).1
  let st := storeVal fmt sat mode
  match op with
  | 0 =>
    if fmtIsFloat fmt then
      let (x, f1) := addVal mode old v
      let (b, f2) := st x
      (b, true, f1.or f2)
    else ((((fmtInt fmt oldBits) + v.toInt64.1) % 2^(fmtBits fmt)).toNat, true, noFlags)
  | 1 | 2 =>
    let (b, f1) := st v
    let w := (fmtVal fmt b).1
    let (c, f2) := st (if op = 1 then old.min w else old.max w)
    (c, true, f1.or f2)
  | 3 =>
    let (b, f1) := st v
    (b, true, f1)
  | _ =>
    let (c, f1) := st v
    let (b, f2) := st n
    (if c = oldBits then b else oldBits, c = oldBits, f1.or f2)

end Sys2Proof.Machine
end

