-- ==== Sys2Proof/Machine/Bench.lean ====
section
/-! DEFINITION. The requester's side of accesses to another device's objects: Bench entries (R343) and the requests that
leave (R339, R344, R346). -/

namespace Sys2Proof.Machine

/-- The access of a firing's memory job. -/
def Job.access? : Job → Option Access
  | .load t | .store t | .scalarLoad t | .scalarStore t _ _ | .atomic t _ _ _ _ _ | .invoke t _ _ _ | .completion t _ | .snapshot t _ => some t
  | _ => Option.none

/-- The blocks that an access touches, in the order met. -/
def Access.blocks (t : Access) : List Nat :=
  ((t.cells.filterMap fun c => t.cell c.1 c.2).map fun x => (t.obj.blockOf x).1).eraseDups

/-- The encoded store data of the cells that lie in the shape, with the flags of their conversion (R203, R339 step 4). -/
def encodeCells (t : Access) (scale : Option Val) (cs : List StoreCell) : List Byte × Flags :=
  let xs := (cs.filter fun c => (t.cell c.row c.col).isSome).map fun c => c.pieces t scale
  (xs.flatMap fun q => t.obj.toWire q.1, unionFlags (xs.map (·.2)))

/-- The value a scalar store writes (R134): a float's bits, or an integer. -/
def scalarVal (fmt : Nat) (v : Word) (asInt : Bool) : Val × Flags := atomOperand fmt v asInt

/-- What a firing's job asks of the owner: the operation, its data, its operands and the flags of conversion. -/
def jobRequest (s : State) (f : Firing) : RemoteOp × List Byte × Word × Word × Flags :=
  match f.job with
  | .store t =>
    let d := Desc.ofWords t.desc t.desc1
    let (sc, f0) := storeScale t.lit1
    let cs := tileCells t (readTile d (s.tileBytes f.core d))
    let (bs, f2) := encodeCells t sc (cs.map (·.1))
    (.write, bs, 0, 0, (f0.or (unionFlags (cs.map (·.2)))).or f2)
  | .scalarStore t v asInt =>
    let (sc, f0) := storeScale t.lit1
    let (x, f1) := scalarVal t.obj.fmt v asInt
    let (bs, f2) := encodeCells t sc (t.cells.map fun c => { row := c.1, col := c.2, val := x, orig := none })
    (.write, bs, 0, 0, (f0.or f1).or f2)
  | .atomic t op _ v uns w => (.invoke op, [], if uns ∧ fmtIsFloat t.obj.fmt then encodeFp64 (Val.ofInt v.toNat) else v, w, noFlags)
  | .invoke _ sub v w => (.invoke sub, [], v, w, noFlags)
  | .snapshot _ bs => (.write, bs, 0, 0, noFlags)
  | _ => (.read, [], 0, 0, noFlags)

/-- The request of a firing (R339): the rows and columns that lie in the shape. -/
def requestOf (s : State) (f : Firing) (t : Access) (dedup : Nat) (replay : Option (Nat × Nat × Nat)) : RemoteReq :=
  let (op, data, v, w, _) := jobRequest s f
  { dev := s.devId, core := f.core, ctx := f.ctx, order := f.order.getD 0, handle := t.obj.base % 2^24, op := op,
    fmt := t.obj.fmt, x := t.x, rows := t.rows.filterMap fun r => (t.cell r 0).map fun x => dim x 2,
    cols := min t.cols (dim t.obj.shape 1 - dim t.x 1), data := data, v := v, w := w, mode := t.mode,
    dedup := dedup, replayOf := replay }

/-- Send a request to the owner on the request channel, one of a copy on the bulk channel (R214, R252). -/
def State.sendRequest (s : State) (f : Firing) (t : Access) (dedup : Nat) (replay : Option (Nat × Nat × Nat)) : State :=
  s.sendPacket f.core f.ctx t.obj.owner (if f.eng = .c then 3 else 0) false (.request (requestOf s f t dedup replay))

/-- The Bench entries of a core. -/
def State.benchOf (s : State) (core : Nat) : List Bench := s.msys.bench.filter fun b => b.core == core

/-- The lowest free Bench index of a core (R343). -/
def freeBench (bs : List Bench) : Option Nat := (List.range 64).find? fun i => !(bs.any fun b => b.idx == i)

/-- Change a Bench entry. -/
def State.modBench (s : State) (core idx : Nat) (f : Bench → Bench) : State :=
  s.modMsys fun m => { m with bench := modify (fun b => b.core == core && b.idx == idx) f m.bench }

/-- The blocks that a Bench entry stands for: the ticketed block, or those of its access before it has a ticket. -/
def Bench.forBlocks (b : Bench) : List Nat := if b.ticketed then [b.block] else b.blocks

/-- Whether a new request must wait behind a ticket (R344): an entry of the context in state 1, 2, 3 or 5 for the same
owner, handle and block. -/
def State.behindTicket (s : State) (core ctx owner handle : Nat) (blocks : List Nat) : Bool :=
  (s.benchOf core).any fun b =>
    b.ctx == ctx && (b.st == 1 || b.st == 2 || b.st == 3 || b.st == 5) && b.owner == owner && b.ohandle == handle
      && b.forBlocks.any blocks.contains

/-- Send a Bench entry's request again, with its dedup tag and, of a ticketed one, what it replays (R344, R345). -/
def State.resendBench (s : State) (b : Bench) (st : Nat) : State :=
  let replay := if b.ticketed then some (b.ticket, b.block, b.ogen) else none
  let u := s.modBench b.core b.idx fun b => { b with st := st }
  match b.part, s.firing? b.fid with
  | some q, _ => u.sendPacket b.core b.ctx b.owner (if b.op = 16 ∨ b.op = 17 then 3 else 0) false (.request { q with replayOf := replay })
  | none, some f => match f.job.access? with
    | some t =>
      let dedup := ((s.chest? b.core b.ctx b.order).map (·.dedup)).getD 0
      u.sendRequest f t dedup replay
    | none => s
  | none, none => s

/-- Whether two Bench entries of one context on a core are for one object and share a block. -/
def Bench.meets (b e : Bench) : Bool :=
  b.core == e.core && b.ctx == e.ctx && b.owner == e.owner && b.ohandle == e.ohandle && b.forBlocks.any e.forBlocks.contains

/-- Whether an entry in state 5 still waits behind a ticket (R344). -/
def State.benchWaits (s : State) (b : Bench) : Bool := s.msys.bench.any fun e => b.meets e && (e.st == 1 || e.st == 2 || e.st == 3)

/-- Take a Bench entry away. -/
def State.dropBench (s : State) (core idx : Nat) : State :=
  s.modMsys fun m => { m with bench := m.bench.filter fun b => !(b.core == core && b.idx == idx) }

/-- Take the Bench entries of a Chest entry away, but one that keeps the result of an atomic (R346). -/
def State.dropBenchOf (s : State) (e : Chest) : State :=
  s.modMsys fun m => { m with bench := m.bench.filter fun b => !(b.core == e.core && b.ctx == e.ctx && b.order == e.order && b.st != 4) }

/-- Whether a job is a read, whose Bench entry sends nothing where it fails (R344). -/
def Job.reads : Job → Bool
  | .load _ | .scalarLoad _ | .completion _ _ => true
  | _ => false

/-- The count of Bench allocations of a core, as SERIAL (R343). -/
def State.serial (s : State) (core : Nat) : Nat := ((s.msys.serials.find? fun q => q.1 == core).map (·.2)).getD 0

/-- Reserve a Bench entry, in state 5 where it must wait behind a ticket (R343, R344). -/
def State.reserve (s : State) (b : Bench) : State :=
  let wait := s.behindTicket b.core b.ctx b.owner b.ohandle b.blocks
  s.modMsys fun m => { m with
    bench := m.bench ++ [{ b with st := if wait then 5 else 0, serial := s.serial b.core }]
    serials := upsert (fun q => q.1 == b.core) (b.core, (s.serial b.core + 1) % 2^24) m.serials }

/-- Reserve a Bench entry for a firing and send its request, or wait behind a ticket (R343, R344). -/
def State.enterBench (s : State) (f : Firing) : State :=
  match f.job.access?, freeBench (s.benchOf f.core) with
  | some t, some i =>
    let b : Bench :=
      { core := f.core, idx := i, st := 0, order := f.order.getD 0, owner := t.obj.owner, ohandle := t.obj.base % 2^24, block := 0, ticket := 0,
        serial := 0, wait := false, result := 0, ok := false, ctx := f.ctx, ogen := 0, ticketed := false, handle := t.handle, op := f.op,
        isRead := f.job.reads, fid := f.id, sect := f.sect, blocks := t.blocks, part := none }
    let fl := (jobRequest s f).2.2.2.2
    let dedup := ((s.chest? f.core f.ctx (f.order.getD 0)).map (·.dedup)).getD 0
    let u := (s.setFlags f.core f.ctx f.eng fl).reserve b
    if s.behindTicket f.core f.ctx b.owner b.ohandle b.blocks then u else u.sendRequest f t dedup none
  | _, _ => s

/-! ### Blocks of this device's own objects at other devices (R206; log 69) -/

/-- The part of an access that lies in one block: a run of columns of some of its rows, a row that is named twice twice (R243). -/
def Access.inBlock (t : Access) (b : Nat) : Access :=
  let cs := t.cells.filter fun c => (t.cell c.1 c.2).any fun x => (t.obj.blockOf x).1 == b
  let lo := ((cs.map (·.2)).min?).getD 0
  { t with
    x := t.x.set 0 (dim t.x 1 + lo)
    rows := t.rows.filter fun r => cs.any fun c => c.1 == r
    cols := ((cs.map (·.2)).max?.getD 0) + 1 - lo }

/-- The coordinates of the elements of an access that lie in the shape, in order. -/
def Access.coords (t : Access) : List (List Nat) := t.cells.filterMap fun c => t.cell c.1 c.2

/-- What an access asks of the device that holds a block: the operation, the store's cells and scale, and an atomic's operands. -/
structure PartAsk where
  op : RemoteOp
  cells : List StoreCell := []
  scale : Option Val := none
  v : Word := 0
  w : Word := 0

/-- The request for the elements of a block at the device that holds it; it names the object by its own handle there (log 69). -/
def State.partRequest (s : State) (e : Chest) (t : Access) (q : PartAsk) : RemoteReq :=
  { dev := s.devId, core := e.core, ctx := e.ctx, order := e.order, handle := t.handle, op := q.op, fmt := t.obj.fmt, x := t.x,
    rows := (t.rows.filterMap fun r => (t.cell r 0).map fun x => dim x 2), cols := t.cols, data := (encodeCells t q.scale q.cells).1,
    v := q.v, w := q.w, mode := t.mode, dedup := e.dedup, replayOf := none }

/-- The Bench entry of a Chest entry's request to a device that holds a block: it has at most one (log 69). -/
def State.partOf (s : State) (e : Chest) : Option Bench :=
  s.msys.bench.find? fun b => b.core == e.core && b.ctx == e.ctx && b.order == e.order && b.part.isSome

/-- Ask the device that holds block b for the elements of an access there (R206, R343; log 69), if a Bench entry is free, no other block of
the access is asked for, and no halt has frozen the Chest; `t` is the access, of which the part in the block goes. -/
def State.askPart (s : State) (e : Chest) (t : Access) (b dev : Nat) (q : PartAsk) : State :=
  match (if (s.partOf e).isSome || !s.lineLow e.ctx then none else freeBench (s.benchOf e.core)) with
  | none => s
  | some i =>
    let part := t.inBlock b
    let inB (c : StoreCell) : Bool := (t.cell c.row c.col).any fun x => (t.obj.blockOf x).1 == b
    let lo := dim part.x 1 - dim t.x 1
    let cells := (q.cells.filter inB).map fun c => { c with col := c.col - lo }
    let r := s.partRequest e part { q with cells := cells }
    let u := s.reserve
      { core := e.core, idx := i, st := 0, order := e.order, owner := dev, ohandle := t.handle, block := b, ticket := 0, serial := 0,
        wait := false, result := 0, ok := false, ctx := e.ctx, ogen := 0, ticketed := false, handle := t.handle, op := e.kind,
        isRead := q.op == .read, fid := e.fid, sect := e.sect, blocks := [b], part := some r }
    if s.behindTicket e.core e.ctx dev t.handle [b] then u else u.sendPacket e.core e.ctx dev (if e.eng = 3 then 3 else 0) false (.request r)

/-- The first of some cells of an access whose element must be accessed at another device, or is being: its place, its block and the device
(R206). -/
def State.firstAway (s : State) (e : Chest) (t : Access) (store : Bool) (cs : List (Int × Nat)) : Option (Nat × Nat × Nat) :=
  if t.obj.st ≠ 2 then none
  else cs.zipIdx.findSome? fun c => (t.cell c.1.1 c.1.2).bind fun x =>
    if e.got.any fun g => g.x == x then none
    else match (s.partOf e).filter (fun b => b.blocks.contains (t.obj.blockOf x).1), s.site t.obj store x with
      | some b, _ => some (c.2, (t.obj.blockOf x).1, b.owner)
      | none, .remote b dev => some (c.2, b, dev)
      | none, _ => none

/-- A Bench entry as 256 bits (R343). -/
def Bench.word (b : Bench) : BitVec 256 :=
  BitVec.ofNat 256 (2^255 + b.st % 8 * 2^252 + b.order % 2^16 * 2^236 + b.owner % 2^18 * 2^218 + b.ohandle % 2^24 * 2^194
    + b.block % 2^32 * 2^162 + b.ticket % 2^13 * 2^149 + b.serial % 2^24 * 2^125 + b.wait.toNat * 2^124 + b.result.toNat * 2^60
    + b.ok.toNat * 2^59 + b.ctx % 2^8 * 2^51 + b.ogen % 2^16 * 2^35)

/-- A Bench reference (R346). -/
def Bench.ref (b : Bench) : Word := BitVec.ofNat 64 (b.idx + b.serial * 64)

end Sys2Proof.Machine
end

