-- ==== Sys2Proof/Machine/MatrixSum.lean ====
section
/-! DEFINITION. Matrix summation (R47 to R49) and the accumulator sets (R119). -/

namespace Sys2Proof.Machine

/-- The exact product of a list of factors, and whether it is 0 times an infinity of operands that are no NaN (R47, R48). -/
def exactProduct (fs : List Val) : Val × Bool :=
  if fs.any Val.isNaN then (.nan, false)
  else
    let r := fs.foldl (fun (acc : Val × Bool) x => let p := mulVal acc.1 x; (p.1, acc.2 || p.2.nv)) (.fin false 1 0, false)
    (r.1, r.2)

/-- A term's floor(log2), for a nonzero finite value. -/
def Val.binade? : Val → Option Int
  | .fin _ m e => if m = 0 then none else some ((Nat.log2 m : Int) + e)
  | _ => none

/-- A value cut toward zero to a multiple of 2^q, in units of 2^q, and whether bits were lost. -/
def Val.cut (q : Int) : Val → Int × Bool
  | .fin s m e =>
    let y := shiftNat m (e - q)
    (if s then -(y : Int) else y, decide (e < q ∧ y <<< (q - e).toNat ≠ m))
  | _ => (0, false)

/-- The exact sum of finite values. -/
def exactSum (xs : List Val) : Val :=
  xs.foldl (fun a x => match a, x with
    | .fin s m e, .fin s' m' e' => addFin s m e s' m' e'
    | a, _ => a) (.zero false)

/-- The one rounding of a sum of exact terms and an accumulator value, in a mode (R47, R153). Where digits were cut (st = 1) and T is not 0, what
is rounded is T + u / 2; NX tells whether that rounding is inexact or its result is not the exact sum (R44; log 83). -/
def groupSum (mode : RM) (terms : List (Val × Bool)) (acc : Val) : Val × Flags :=
  let all := acc :: terms.map (·.1)
  if acc.isNaN || terms.any fun t => t.1.isNaN && !t.2 then (.nan, noFlags)
  else
    let pos := all.any fun y => decide (y = .inf false)
    let neg := all.any fun y => decide (y = .inf true)
    if (terms.any (·.2)) || (pos && neg) then (.nan, flagNV)
    else if pos then (.inf false, noFlags)
    else if neg then (.inf true, noFlags)
    else match (all.filterMap Val.binade?).max? with
      | none => (.zero (all.all Val.sign), noFlags)
      | some l =>
        let q := l - 194
        let cuts := all.map (Val.cut q)
        let t := (cuts.map (·.1)).sum
        let st := cuts.any (·.2)
        if t = 0 then (.zero false, { nx := st })
        else
          let (v, f) := roundTo xfTarget mode (decide (t < 0)) ⟨2 * t.natAbs + st.toNat, q - 1, false⟩
          (v, { f with nx := f.nx || (st && decide (v.cmp (exactSum all) ≠ some .eq)) })

/-- The update of a k-group: matrix accumulation always rounds in RNE (R47). -/
def groupUpdate (terms : List (Val × Bool)) (acc : Val) : Val × Flags := groupSum .rne terms acc

/-- Apply the k-groups to one element: `g` gives the terms of each group in ascending order. -/
def applyGroups (groups : List (List (Val × Bool))) (acc : Val) : Val × Flags :=
  groups.foldl (fun (r : Val × Flags) ts => let u := groupUpdate ts r.1; (u.1, r.2.or u.2)) (acc, noFlags)

/-- Split a list into groups of n. -/
def chunks {α : Type} (n : Nat) : Nat → List α → List (List α)
  | 0, _ => []
  | k + 1, l => if l.isEmpty then [] else l.take n :: chunks n k (l.drop n)

/-- The rows of a row-major list. -/
def rowsOf {α : Type} (rows cols : Nat) (l : List α) : List (List α) := chunks cols rows l

/-- Rows and columns exchanged. -/
def transposeRows {α : Type} (cols : Nat) (rows : List (List α)) : List (List α) :=
  (List.range cols).map fun j => rows.filterMap fun r => r[j]?

/-- The listed entries of a register bank, expanded to n places with a default. -/
def expandSparse (dflt : BitVec 80) : Nat → Nat → List (Nat × BitVec 80) → List (BitVec 80)
  | 0, _, _ => []
  | n + 1, i, [] => dflt :: expandSparse dflt n (i + 1) []
  | n + 1, i, (k, v) :: t =>
    if k = i then v :: expandSparse dflt n (i + 1) t else dflt :: expandSparse dflt n (i + 1) ((k, v) :: t)

/-- Only the places that differ from the default. -/
def compressSparse (dflt : BitVec 80) (vs : List (BitVec 80)) : List (Nat × BitVec 80) :=
  vs.zipIdx.filterMap fun (v, i) => if v = dflt then none else some (i, v)

/-- XF 1.0, the initial σ (R119). -/
def xfOne : BitVec 80 := encodeXf (.fin false 1 0)

/-- The 64 rows of a set's elements. -/
def AccSet.rows (a : AccSet) : List (List (BitVec 80)) := rowsOf 64 64 (expandSparse 0 4096 0 a.elems)

/-- The 64 rows of a set's scales, two in each (R119). -/
def AccSet.scales (a : AccSet) : List (List (BitVec 80)) := rowsOf 64 2 (expandSparse xfOne 128 0 a.sigma)

/-- Replace a set's elements. -/
def AccSet.withRows (a : AccSet) (rs : List (List (BitVec 80))) : AccSet :=
  { a with elems := compressSparse 0 rs.flatten }

/-- Replace a set's scales. -/
def AccSet.withScales (a : AccSet) (rs : List (List (BitVec 80))) : AccSet :=
  { a with sigma := compressSparse xfOne rs.flatten }

/-- Zero every element and clear the mark; σ stays (R122, R126 ACCZ). -/
def AccSet.zeroed (a : AccSet) : AccSet := { a with elems := [], pmark := false }

/-- The value an accumulator element holds. -/
def accVal (w : BitVec 80) : Val := (decodeXf w).1

/-- Update the region of rows 0 to r-1 and columns 0 to c-1 by a function of position and old value; the rest stays. -/
def updateRegion (r c : Nat) (rows : List (List (BitVec 80))) (f : Nat → Nat → BitVec 80 → BitVec 80 × Flags) :
    List (List (BitVec 80)) × Flags :=
  let res := rows.zipIdx.map fun (row, i) =>
    row.zipIdx.map fun (w, j) => if i < r ∧ j < c then f i j w else (w, noFlags)
  (res.map fun row => row.map (·.1), unionFlags (res.flatten.map (·.2)))

/-- Accumulate into a region: `terms i j` are the exact terms of element (i, j) in ascending k. -/
def accumulate (r c : Nat) (a : AccSet) (group : Nat) (terms : Nat → Nat → List (Val × Bool)) : AccSet × Flags :=
  let (rows, fl) := updateRegion r c a.rows fun i j w =>
    let ts := terms i j
    let (v, f) := applyGroups (chunks group (ts.length + 1) ts) (accVal w)
    (encodeXf v, f)
  (a.withRows rows, fl)

end Sys2Proof.Machine
end

