-- ==== Sys2Proof/Machine/Firing.lean ====
section
/-! DEFINITION. Issuing a firing (R19, R24, R116, R164 to R166, R174, R176): what every operator shares. An operator's
own rule is a Plan; `issuePlan` carries it out. -/

namespace Sys2Proof.Machine

/-- What a firing's Chest entry records (R286, R287): class, kind code, handle, generation, rows and operand. -/
structure ChestNeed where
  cls : Nat
  kind : Nat
  handle : Nat := 0
  gen : Nat := 0
  rows : Nat := 0
  arg : Word := 0

/-- What an operator changes and sends once it issues: the machine after it, the outputs and the flags. -/
structure Effect where
  st : State
  outs : List Out := []
  flags : Flags := noFlags
  job : Job := .none
  freeCol : Option Nat := none

/-- What an operator's rule says of one firing. `fault` is an unrecoverable fault at issue (R116); `halt` a recoverable
one with its handle, generation and block (R204); `occ` the ck of occupancy; `gen` whether it holds a generator, `hold`
whether it holds it until completion (R127, R352); `bench` whether it needs a Bench entry (R174); `inOrder` whether the
results of its slot keep issue order (R127); `cola` whether it takes a colour (R186); `extra` further bytes it holds
(R309); `effect` is given the state, the outgoing colour and tag. -/
structure Plan where
  fault : Option Nat := none
  halt : Option (Nat × Nat × Nat × Nat) := none
  cost : Nat := 1
  occ : Nat := 1
  gen : Bool := false
  hold : Bool := true
  bench : Bool := false
  inOrder : Bool := false
  cola : Bool := false
  chest : Option ChestNeed := none
  notice : Bool := false
  extra : Nat := 0
  effect : State → Nat → BitVec 32 → Effect := fun s _ _ => { st := s }

/-- A plan that faults at issue (R116). -/
def Plan.faults (kind : Nat) : Plan := { fault := some kind }

/-! ### Tags (R163, R164) -/

/-- The width of tag field f (R89 k.tagfmt). -/
def tagWidth (fmt : BitVec 24) (f : Nat) : Nat := if f < 4 then (fmt.extractLsb' (6 * f) 6).toNat else 0

/-- The lowest bit of tag field f (R163). -/
def tagLow (fmt : BitVec 24) (f : Nat) : Nat := ((List.range f).map (tagWidth fmt)).sum

/-- Field f of a tag; an absent field reads 0 (R163). -/
def tagField (fmt : BitVec 24) (tag : BitVec 32) (f : Nat) : Nat := tag.toNat / 2^(tagLow fmt f) % 2^(tagWidth fmt f)

/-- A tag with field f replaced (R163). -/
def setTagField (fmt : BitVec 24) (tag : BitVec 32) (f v : Nat) : BitVec 32 :=
  let lo := tagLow fmt f
  let w := tagWidth fmt f
  BitVec.ofNat 32 (tag.toNat - tagField fmt tag f * 2^lo + v % 2^w * 2^lo)

/-- The outgoing colour and tag, or a fault kind (R164): `got` is the colour that NEWC allocated. -/
def tagAction (fmt : BitVec 24) (cols code : Nat) (lit1 : Word) (got col : Nat) (tag : BitVec 32) : Nat ⊕ (Nat × BitVec 32) :=
  if 1 ≤ code ∧ code ≤ 4 then
    let f := code - 1
    let w := tagWidth fmt f
    if w = 0 ∨ tagField fmt tag f = 2^w - 1 then .inl 8
    else .inr (col, setTagField fmt tag f (tagField fmt tag f + 1))
  else if code = 5 then .inr (col, setTagField fmt tag 0 0)
  else if code = 6 then .inr (got, tag)
  else if code = 7 then .inr (0, tag)
  else if code = 8 then
    let c := (lit1.extractLsb' 0 6).toNat
    if cols < c then .inl 9 else .inr (c, tag)
  else if code = 9 then .inr (0, 0)
  else .inr (col, tag)

/-! ### Colours (R165 to R167) -/

/-- Whether a colour is allocated in a pool. -/
def CoreCtx.held (x : CoreCtx) (c : Nat) : Bool := x.pool.any fun q => q.1 == c

/-- The lowest free colour of 1 to cols (R166). -/
def CoreCtx.freeColour (x : CoreCtx) (cols : Nat) : Option Nat :=
  ((List.range cols).map (· + 1)).find? fun c => !x.held c

/-! ### Operands -/

/-- The token that a source select names (R19): port a for code 0, port b for code 1. -/
def Firing.tok (f : Firing) (src : BitVec 3) : Option Token :=
  if src = 0 then f.a else if src = 1 then f.b else none

/-- Whether a token is poison (R16). -/
def Token.isPoison (t : Token) : Bool := decide (t.kind = 5 ∨ t.kind = 6)

/-- Whether a token is a tile token. -/
def Token.isTile (t : Token) : Bool := decide (t.kind = 0 ∨ t.kind = 5)

/-- The descriptor of a tile token. -/
def Token.desc (t : Token) : Desc := Desc.ofWords t.w0 t.w1

/-- The tokens a firing consumed. -/
def Firing.toks (f : Firing) : List Token := f.a.toList ++ f.b.toList ++ f.p.toList

/-- The tag of a Drawer's firing (R24): that of port a if the slot declares it, else of port b if it declares that, else of
port p. A MERGE's lone token (R183) stands for the declared port that it came on. -/
def tokTag (sl : Slot) (a b p : Option Token) : BitVec 32 :=
  match (if sl.declares 0 then a else none), (if sl.declares 1 then b else none), p with
  | some t, _, _ => t.tag
  | none, some t, _ => t.tag
  | none, none, some t => t.tag
  | none, none, none => 0

/-- The non-discard destinations of an operator word: both codes. -/
def opDests (f : OpFields) : List Nat := [f.dest0.toNat, f.dest1.toNat]

/-- The fields of an operator word as its sends read them: the destination fields of SINK and SEAL are ignored, by EOS and error-EOS too
(R184, R314). -/
def sendFields (w : BitVec 32) : OpFields :=
  if wordOp w = 0x90 ∨ wordOp w = 0xA2 then { wordFields w with dest0 := 0, dest1 := 0 } else wordFields w

/-- One result for both destinations. -/
def bothOut (f : OpFields) (v : OutVal) (col : Nat) (tag : BitVec 32) : Out := { codes := opDests f, val := v, col := col, tag := tag }

/-! ### Issue -/

/-- The class multiplier of an energy class (R65). -/
def classUnits (ecls : Nat) : Nat := 4^ecls

/-- Debit units from a context's budget on a core; an excess becomes shortfall (R176). -/
def CoreCtx.debit (x : CoreCtx) (n : Nat) : CoreCtx :=
  if n ≤ x.ebudget then { x with ebudget := x.ebudget - n }
  else { x with ebudget := 0, shortfall := x.shortfall + (n - x.ebudget) }

/-- Count a firing of a section on a core; the core is spent when the count reaches the tile count (R161). -/
def CoreCtx.countFiring (x : CoreCtx) (sect tiles : Nat) : CoreCtx :=
  { x with sects := modify (fun q => q.sect == sect) (fun q => { q with count := q.count + 1, spent := q.spent || decide (tiles ≤ q.count + 1) }) x.sects }

/-! ### The sets that M holds (R119) -/

/-- The context whose sets M of a core holds (R119). -/
def State.holder (s : State) (core : Nat) : Option Nat := (s.flow.holder.find? fun q => q.1 == core).map (·.2)

/-- The swap time before a firing of a context on M (R119). -/
def State.swapTime (s : State) (core ctx : Nat) (everInM : Bool) : Nat :=
  match s.holder core with
  | some h => if h = ctx then 0 else if everInM then 160 else 80
  | none => if everInM then 80 else 0

/-- Bytes of the sets in a save area: 330 granules (R119). -/
def setBytes : Nat := 168960

/-- M comes to hold the sets of a context; the held sets of another go to their owner's save area, in an encoding the
spec does not give (R119, log 14). -/
def State.swapIn (s : State) (core ctx : Nat) : State :=
  if s.holder core = some ctx then s
  else
    let s := match (s.holder core).bind fun h => (s.cctx? core h).bind (·.area) with
      | some i =>
        match s.flow.allocs.find? (fun (a : Alloc) => a.core == core && a.idx == i) with
        | some a => s.havoc (scratchKey core (512 * a.base)) setBytes
        | none => s
      | none => s
    (s.modFlow fun w => { w with holder := upsert (fun q => q.1 == core) (core, ctx) w.holder }).modCctx core ctx fun x =>
      { x with everInM := true }

/-- The swap before a firing that issues, or goes on, on an engine (R119): any firing on M, of whatever operator, needs the sets of its context
in M; the ck it takes. -/
def State.swapFor (s : State) (f : Firing) (y : CoreCtx) : State × Nat :=
  if f.eng = .m then (s.swapIn f.core f.ctx, s.swapTime f.core f.ctx y.everInM) else (s, 0)

/-- The ck of an engine's last issue is this one (R23). -/
def State.markIssue (s : State) (core : Nat) (e : Eng) : State :=
  s.modFlow fun w => { w with issued := upsert (fun q => q.1 == core && q.2.1 == e) (core, e, s.ck) w.issued }

/-- Whether an engine has issued in this ck (R23). -/
def State.issuedNow (s : State) (core : Nat) (e : Eng) : Bool :=
  s.flow.issued.any fun q => q.1 == core && q.2.1 == e && q.2.2 == s.ck

/-- An engine has made its colour request of this ck (R166). -/
def State.markAsk (s : State) (core : Nat) (e : Eng) : State :=
  s.modFlow fun w => { w with asked := upsert (fun q => q.1 == core && q.2.1 == e) (core, e, s.ck) w.asked }

/-- Whether an engine has made its colour request of this ck (R166). -/
def State.askedNow (s : State) (core : Nat) (e : Eng) : Bool :=
  s.flow.asked.any fun q => q.1 == core && q.2.1 == e && q.2.2 == s.ck

/-- A stopped firing goes on for the ck of occupancy that it has left, on M after the swap that its context's sets need (R119, R143, R296). -/
def State.goOn (s : State) (f : Firing) : State :=
  match s.cctx? f.core f.ctx with
  | some y =>
    let (s, swap) := s.swapFor f y
    (s.modFiring f.id fun g => { g with
      phase := .working, start := s.ck + swap, due := s.ck + swap + g.busy, busy := s.ck + swap + g.busy }).markIssue f.core f.eng
  | none => s

/-- The granules of work area in the result allocation of a V operator that keeps a running state (R143): of VEXPD and TOPK in that of
their second result (log 59). -/
def workArea (op : Nat) : Nat :=
  if op = 0x70 ∨ op = 0x71 then 4 else if op = 0x72 ∨ op = 0x73 then 1 else 0

/-- Whether an output is a tile that has no space yet. -/
def Out.isNew (o : Out) : Bool := match o.val with
  | .newTile _ _ _ => true
  | _ => false

/-- The work area that stands after a new tile of a firing: it goes with the last one, and a poison result has none (R140, R143). -/
def areaAfter (op : Nat) (poison : Bool) (t : List Out) : Nat := if poison || t.any Out.isNew then 0 else workArea op

/-- Ask for the space of each new tile of a firing of an opcode, in order; each that fits at once is placed (R12). -/
def placeOuts (op core ctx : Nat) : State → List Out → State × List Out × Bool
  | s, [] => (s, [], true)
  | s, o :: t =>
    match o.val with
    | .newTile desc bs poison =>
      if s.flow.reqs.any fun r => r.core == core then (s, o :: t, false)
      else match s.newTile core ctx (areaAfter op poison t) desc bs with
        | none => (s, o :: t, false)
        | some (s', d) =>
          let (s'', t', ok) := placeOuts op core ctx s' t
          (s'', { o with val := .tile d.word 0 poison } :: t', ok)
    | _ =>
      let (s', t', ok) := placeOuts op core ctx s t
      (s', o :: t', ok)

/-- Bytes of the first tile a firing still waits for, its work area included. -/
def pendingBytes (op : Nat) : List Out → Nat
  | [] => 0
  | o :: t => match o.val with
    | .newTile desc _ poison =>
      let n := (Desc.ofWords desc 0).bytes
      let area := areaAfter op poison t
      if area = 0 then n else 512 * (granules n + area)
    | _ => pendingBytes op t

/-- The allocation records of the tiles a firing has made. -/
def madeTiles (outs : List Out) : List Nat :=
  outs.filterMap fun o => match o.val with
    | .tile d _ _ => some (Desc.ofWords d 0).alloc
    | _ => none

/-- Whether an entry's access counts as in flight (R208): SHOP and PUBL are commands, not accesses. -/
def Chest.counts (e : Chest) : Bool := e.kind != 19 && e.kind != 20

/-- An entry's access leaves the in-flight count, if it stands in it (R208). -/
def State.uncount (s : State) (e : Chest) : State :=
  if e.counted then
    (s.inflight e.handle e.gen false).modChest e.core e.ctx e.order fun c => { c with counted := false }
  else s

/-- The tile that a job reads at memory's side: the allocation record of a store's or a push's data (R286). -/
def Job.tileRead : Job → Option Nat
  | .store t => some (Desc.ofWords t.desc t.desc1).alloc
  | .push _ _ d d1 marker _ => if marker = 0 then some (Desc.ofWords d d1).alloc else Option.none
  | _ => Option.none

/-- ALLOC of an entry (R286): the tile that it reads or fills, else 0. -/
def entryAlloc (outs : List Out) (j : Job) : Nat := (j.tileRead.toList ++ madeTiles outs).headD 0

/-- Enter a Chest entry for a firing (R286, R288); its access counts as in flight (R208). -/
def State.enterChest (s : State) (f : Firing) (n : ChestNeed) (alloc : Nat) : State × Nat :=
  match s.cctx? f.core f.ctx with
  | none => (s, 0)
  | some x =>
    let i2 := decide (n.cls = 2)
    let e : Chest :=
      { core := f.core, ctx := f.ctx, order := x.order, st := 0, cls := n.cls, kind := n.kind, slot := f.slot, eng := engCode f.eng,
        col := f.col, tag := f.tag, sect := f.sect, gen := n.gen, handle := n.handle, row := 0, cell := 0, alloc := alloc,
        dedup := if i2 then f.ctx * 2^33 + f.core * 2^24 + x.i2seq else 0, arg := n.arg, fid := f.id, rows := n.rows,
        done := false, result := 0, ok := true, poison := false, counted := n.kind != 19 && n.kind != 20,
        owner := ((s.obj? n.handle).map (·.owner)).getD s.devId, got := [] }
    let s := s.modCctx f.core f.ctx fun x =>
      { x with order := (x.order + 1) % 65536, i2seq := if i2 then (x.i2seq + 1) % 2^24 else x.i2seq }
    ((if e.counted then s.inflight n.handle n.gen true else s).modMsys fun m => { m with chest := m.chest ++ [e] }, x.order)

/-- A firing that faults at issue (R116): its tokens are consumed, its tiles released, and its section sealed; it holds
its engine for 1 ck. -/
def faultIssue (s : State) (f : Firing) (kind : Nat) : State :=
  (((s.dropTiles f.core f.toks).raise f.ctx f.sect kind).markIssue f.core f.eng)

/-- `dolz` stops at a halt: a stop line that names the engine whose stop record was written last, and the hold of the context (R193,
R321). -/
def State.haltStop (s : State) (ctx : Nat) (why : LineReason) : State :=
  match s.ctx? ctx with
  | none => s
  | some x =>
    let q := x.watch.last
    let rec_ : BitVec 512 := (((s.cctx? q.1 ctx).bind fun y => y.stops.find? fun t => t.e == q.2).map (·.record)).getD 0
    let slot := if q.2 = 3 then ctlWord (rec_.extractLsb' 384 64).toNat else (rec_.extractLsb' 177 9).toNat
    s.stopLine ctx q.1 q.2 slot (rec_.extractLsb' 186 6).toNat (rec_.extractLsb' 224 32) why

/-- A cause of a halt arises (R283): while the line is up it joins the halt. One that joins a halted context, also while that is being saved,
is under `break fault` a stop of its own (R321; log 65); one that joins while the context is being restored stops once it has halted again. -/
def State.addCause (s : State) (ctx : Nat) (c : HaltCause) : State :=
  match s.ctx? ctx with
  | none => s
  | some x =>
    let fault := decide (32 ≤ c.kind)
    let halted := decide (x.phase = .halted ∨ x.phase = .saving)
    let s := s.modCtx ctx fun x => { x with causes := x.causes ++ [c], watch := { x.watch with due := x.watch.due || (halted && fault) } }
    if halted = true ∧ x.dolz = true ∧ x.watch.onFault = true ∧ fault = true then
      s.haltStop ctx (if c.kind = 35 then .preemption else .fault)
    else s

/-- A recoverable fault at issue (R204, R283): the halt line's cause; the firing goes back to its place in the ready order, and issues
again after service. -/
def haltIssue (s : State) (f : Firing) (r : Ready) (q : Nat × Nat × Nat × Nat) : State :=
  let cause : HaltCause := { kind := q.1, core := f.core, e := engCode f.eng, slot := f.slot, handle := q.2.1, gen := q.2.2.1, block := q.2.2.2, order := none }
  (s.modFlow fun w => { w with ready := r :: w.ready }).addCause f.ctx cause

/-- Whether a slot's operator breakpoint is for a colour (R65, R304). -/
def Slot.breaksAt (t : Slot) (col : Nat) : Bool := t.brk && (!t.fen || col == t.fcol)

/-- The Drawer a firing came from, for a return to the ready order or a colour wait: a breakpoint of its slot has let it pass, and does not
fire again (R304). -/
def Firing.drawer (f : Firing) (t : Slot) (since : Nat) : Ready :=
  { core := f.core, ctx := f.ctx, eng := f.eng, slot := f.slot, col := f.col, a := f.a, b := f.b, p := f.p, overflow := none,
    seq := f.mseq, ck := f.mck, since := since, got := f.got, cont := t.breaksAt f.col }

/-- Shorten an allocation to n bytes; the granules beyond return to the allocator (R249). -/
def State.shrink (s : State) (core idx n : Nat) : State :=
  s.modFlow fun w => { w with allocs := modify (fun a => a.core == core && a.idx == idx) (fun a => { a with len := granules n }) w.allocs }

/-- A firing's run of granules becomes a tile of a shape at its start (R249): the descriptor. -/
def State.runTile (s : State) (f : Firing) (desc : Word) : State × Option Word :=
  match f.psum.bind fun i => s.flow.allocs.find? fun (a : Alloc) => a.core == f.core && a.idx == i with
  | some a =>
    let d := Desc.ofWords desc 0
    let w := Desc.word { d with addr := 512 * a.base, alloc := a.idx }
    ((s.shrink f.core a.idx d.bytes).modFiring f.id fun g => { g with psum := none, release := g.release ++ [a.idx] }, some w)
  | none => (s, none)

/-- A 1×1 poison-tile takes the start of the run of an RPOP with a poison trigger, and the rest returns at once (R249): its
job is none. -/
def State.afterRun (s : State) (f : Firing) : State :=
  if f.op = 0x2C ∧ f.job = .none then
    match f.outs with
    | o :: _ => match o.val with
      | .tile d _ p =>
        let (s, w) := s.runTile f d
        s.modFiring f.id fun g => { g with outs := [{ o with val := .tile (w.getD d) 0 p }] }
      | _ => s
    | [] => s
  else s

/-- The fault that a firing's tag action raises (R164, R167), for a colour already received or a first one. -/
def tagFault (x : Ctx) (y : CoreCtx) (f : Firing) (sl : Slot) (ops : OpFields) : Option Nat :=
  match tagAction x.tagfmt x.cols ops.tag.toNat sl.lit1 (f.got.getD 0) f.col f.tag with
  | .inl k => some k
  | .inr _ => if ops.tag.toNat = 7 ∧ f.col ≠ 0 ∧ y.held f.col = false then some 10 else none

/-- Whether a job writes elements of its object. -/
def Job.stores : Job → Bool
  | .store _ | .scalarStore _ _ _ | .snapshot _ _ => true
  | _ => false

/-- The memory that a job's access reaches (R210, R280): that of its first element in the shape, or of its record. The rule speaks of one
bank, and where a sparse object's blocks lie in several, the first element's decides for the whole access (log 77). -/
def State.jobBank (s : State) (j : Job) : Option Bank :=
  let own (r : ObjRec) : Option Bank := if r.owner = s.devId then bankOf r.base else Option.none
  match j.access? with
  | some t =>
    if t.obj.owner ≠ s.devId then Option.none
    else ((t.cells.findSome? fun c => t.cell c.1 c.2).bind fun x => match s.site t.obj j.stores x with
      | .at ((a, _, _) :: _) => bankOf a
      | _ => Option.none)
  | none => match j with
    | .push _ r _ _ _ _ | .pop _ r | .counterAdd _ r _ _ | .counterWait _ r _ _ | .counterRead _ r _ => own r
    | _ => Option.none

/-- The opcodes whose requests take the stream of dest0 (R280). -/
def takesStream (op : Nat) : Bool := decide (0x20 ≤ op ∧ op ≤ 0x2C) || [0x35, 0x36, 0x37, 0x3A, 0x3C].contains op

/-- The stream of a firing's requests and replies (R280): that of dest0's entry, if it is admitted for the context on the core toward
the memory that the firing reaches; else 0, best-effort. -/
def State.requestStream (s : State) (f : Firing) (o : OpFields) (j : Job) : Nat :=
  let code := o.dest0.toNat
  let e := s.dest f.core f.ctx f.eng code
  let id := (e.extractLsb' 9 4).toNat
  if takesStream f.op = false ∨ code = 0 ∨ code = 127 ∨ e.getLsbD 63 = false ∨ id = 0 then 0
  else match s.jobBank j with
    | none => 0
    | some b =>
      if s.host.streams.any fun t => t.byLid.isNone && t.ctx == f.ctx && t.core == f.core && t.id == id && !t.target.getLsbD 63
          && bankOf (t.target.extractLsb' 0 48).toNat == some b then id
      else 0

/-- Issue a firing with its plan (R19, R116, R164, R166, R176). -/
def issuePlan (s : State) (f : Firing) (sl : Slot) (ops : OpFields) (p : Plan) : State :=
  match s.ctx? f.ctx, s.cctx? f.core f.ctx with
  | some x, some y =>
    match p.fault, p.halt with
    | some k, _ => faultIssue s f k
    | none, some q => haltIssue s f (f.drawer sl 0) q
    | none, none =>
      let code := ops.tag.toNat
      let asks := decide (code = 6) || p.cola
      match tagFault x y f sl ops with
      | some k => faultIssue s f k
      | none =>
        if asks ∧ f.got.isNone ∧ (y.freeColour x.cols).isNone then
          (s.markAsk f.core f.eng).modFlow fun w => { w with cwait := w.cwait ++ [f.drawer sl s.ck] }
        else
          let got : Option Nat := if asks then (match f.got with | some c => some c | none => y.freeColour x.cols) else none
          let s := if asks ∧ f.got.isNone then
              (s.markAsk f.core f.eng).modCctx f.core f.ctx fun y => { y with pool := y.pool ++ [(got.getD 0, f.sect)] }
            else s
          let (col, tag) := match tagAction x.tagfmt x.cols code sl.lit1 (got.getD 0) f.col f.tag with
            | .inr r => r
            | .inl _ => (f.col, f.tag)
          let f := { f with got := got }
          let tiles := ((x.section? f.sect).map (·.tiles)).getD 0
          let s := s.modCctx f.core f.ctx fun y =>
            let y := y.debit (p.cost * classUnits sl.ecls)
            if f.eos then y else y.countFiring f.sect tiles
          let e := p.effect s col tag
          let (s, swap) := e.st.swapFor f y
          let s := s.setFlags f.core f.ctx f.eng e.flags
          let needRoom := decide (p.extra ≠ 0)
          let (s, ps) : State × Option Alloc :=
            if needRoom ∧ (s.flow.reqs.any fun r => r.core == f.core) = false then
              (match s.allocate f.core f.ctx p.extra with | some (s', a) => (s', some a) | none => (s, none))
            else (s, none)
          let (s, outs, placed) := placeOuts f.op f.core f.ctx s e.outs
          let ok := placed && (!needRoom || ps.isSome)
          let held := (f.a.bind Token.alloc?).toList ++ (f.b.bind Token.alloc?).toList
          let (s, order) : State × Option Nat := match p.chest with
            | some n =>
              let alloc := if f.op = 0x2C then (ps.map (·.idx)).getD 0 else entryAlloc outs e.job
              let (s', o) := s.enterChest f n alloc
              (s', some o)
            | none => (s, none)
          let g : Firing := { f with
            outCol := col, outTag := tag, outs := outs, release := held ++ (if f.op = 0x2C then [] else madeTiles outs),
            freeCol := match e.freeCol with | some c => some c | none => if code = 7 ∧ f.col ≠ 0 then some f.col else none,
            phase := if ok then .working else .waitSpace, start := s.ck + swap, due := s.ck + swap + p.occ, busy := if ok then s.ck + swap + p.occ else swap + p.occ,
            genHeld := p.gen && p.hold, strm := s.requestStream f ops e.job, inOrder := p.inOrder, order := order, job := e.job,
            psum := ps.map (·.idx), occ := p.occ, born := s.ck }
          let s := s.modFlow fun w => { w with firings := w.firings ++ [g] }
          let s := if p.bench then s.enterBench g else s
          let s := if ps.isSome then s.afterRun g else s
          let s := if placed then s else s.modFlow fun w =>
            { w with reqs := w.reqs ++ [{ core := f.core, bytes := pendingBytes f.op outs, who := .firing f.id }] }
          let s := if needRoom ∧ ps.isNone then s.modFlow fun w =>
              { w with reqs := w.reqs ++ [{ core := f.core, bytes := p.extra, who := .psum f.id }] } else s
          s.markIssue f.core f.eng
  | _, _ => s.dropTiles f.core f.toks

/-- An operator's meaning from its plan: the firing being issued, with its slot, is carried out (R19). A Drawer that
matched EOS on one data port and data on the other raises after-end (R26). -/
def issueWith (s : State) (ops : OpFields) (plan : State → Firing → Slot → CoreCtx → Ctx → Plan) :
    Host.Outcome State Fault Refusal :=
  match s.firing with
  | none => .fault .noFiring
  | some f =>
    let s0 := { s with firing := none }
    match s.slot? f.core f.ctx f.eng f.slot, s.cctx? f.core f.ctx, s.ctx? f.ctx with
    | some sl, some y, some x =>
      if (sl.declares 0 && isEos f.a) || (sl.declares 1 && isEos f.b) then finish s (faultIssue s0 f 7)
      else finish s (issuePlan s0 f sl ops (plan s0 f sl y x))
    | _, _, _ => finish s (s0.dropTiles f.core f.toks)

/-! ### Stops for the debugger -/

/-- Stop an engine for a context at a firing for the debugger, with its record and the stop line (R193, R304, R308, R317). -/
def State.debugStop (s : State) (reason : Nat) (f : Firing) : State :=
  let r := StopInfo.word { ck := s.ck, tag := f.tag.toNat, sect := f.sect, reason := reason, ctx := f.ctx, col := f.col, slot := f.slot,
                           core := f.core, e := engCode f.eng, valid := true }
  ((s.writeStop f.ctx f.core (engCode f.eng) r).addStop f.core f.ctx
    { e := engCode f.eng, reason := reason, record := r, stepped := none }).stopLine f.ctx f.core (engCode f.eng) f.slot f.col f.tag
      (.stop reason)

/-- Whether a stop is that of a single-step whose firing is a given one. -/
def Stop.steps (q : Stop) (id : Nat) : Bool := q.stepped == some id

/-- The firing of a single-step has sent, or ended in a fault: the debugger receives the stop (R306). -/
def State.stepDone (s : State) (f : Firing) : State :=
  match s.cctx? f.core f.ctx with
  | some y =>
    if y.stops.any fun q => q.steps f.id then
      (s.modCctx f.core f.ctx fun y => { y with stops := y.stops.map fun q => if q.steps f.id then { q with stepped := none } else q }).stopLine
        f.ctx f.core (engCode f.eng) f.slot f.col f.tag (.stop 3)
    else s
  | none => s

/-! ### Halts -/

/-- Whether engine e of a core is stopped by a context's halt (R284): stops of reasons 0 and 5. -/
def State.haltStopped (s : State) (core ctx e : Nat) : Bool :=
  match s.cctx? core ctx with
  | some y => y.stops.any fun t => t.e == e && (t.reason == 0 || t.reason == 5)
  | none => false

/-- Whether engine e of a core still works for a context: it has not stopped for a halt (R284). -/
def State.engineLive (s : State) (core ctx e : Nat) : Bool :=
  match s.ctx? ctx with
  | some x => x.phase == .resident || (x.phase == .halting && !s.haltStopped core ctx e)
  | none => false

/-- Whether a core's Chest is frozen for a context (R285, R289): each of its five engines has stopped, or the context is halted. -/
def State.frozen (s : State) (core ctx : Nat) : Bool :=
  match s.ctx? ctx with
  | some x => match x.phase with
    | .resident | .restoring | .lost => false
    | .halting => (List.range 5).all fun e => s.haltStopped core ctx e
    | .halted | .saving | .saved => true
  | none => false

/-- The rows of a tile access (R135); any other access counts as one. -/
def Job.rows : Job → Nat
  | .load t | .store t => t.rows.length
  | _ => 1

/-- The rows that a tile access comes to: all, or those issued when its section sealed (R297). -/
def Firing.goalRows (f : Firing) : Nat := if f.sealed then min f.prog f.job.rows else f.job.rows

/-- The rows whose requests a memory firing has issued (R127, R135, R284): one in each ck since it last began, up to where it was
stopped; none while it waits for space. -/
def State.issuedRows (s : State) (f : Firing) : Nat :=
  if f.phase = .stopped ∨ f.phase = .waitSpace then f.prog else min f.goalRows (f.prog + (s.ck - f.start))

/-! ### Generators -/

/-- Whether an opcode is a memory firing of S that a generator issues (R127). -/
def isMemoryOp (op : Nat) : Bool := decide (0x20 ≤ op ∧ op ≤ 0x2C) || [0x35, 0x37, 0x3A, 0x3C, 0x41].contains op

/-- Whether a firing's access is still at memory in a form that holds its generator (R127, R248, R271). -/
def Job.holdsGen : Job → Bool
  | .load _ | .store _ | .scalarLoad _ | .scalarStore _ _ _ | .atomic _ _ _ _ _ _ | .counterAdd _ _ _ _ | .counterRead _ _ _
  | .completion _ _ | .snapshot _ _ => true
  | _ => false

/-- Whether a firing is one of M's products. -/
def Firing.isProduct (f : Firing) : Bool := match f.job with
  | .mma _ _ _ _ _ _ => true
  | _ => false

/-- Whether a stopped firing needs its engine free, or a generator of S, before it goes on (R127, R141): the engine performs the rest of it
itself, or it asks for rows and keeps a generator for its answers. -/
def Firing.needsEngine (f : Firing) : Bool :=
  match f.job with
  | .none => f.order.isNone && decide (0 < f.busy)
  | .mma _ _ _ _ _ _ => true
  | j => f.genHeld && j.holdsGen

/-- Whether a memory firing holds its generator only in the ck of its issue (R352): it has an entry, and does not keep the generator. -/
def Firing.issueGen (f : Firing) : Bool := !f.genHeld && f.order.isSome && isMemoryOp f.op

/-- The generators of S in use on a core (R127, R352); a firing that a halt has stopped, or whose context has left the core, holds none
(R283, R292). -/
def State.gensInUse (s : State) (core : Nat) : Nat :=
  (s.flow.firings.filter fun f => f.core == core && f.eng == .s && ((f.issueGen && f.born == s.ck)
    || (f.genHeld && (f.phase == Phase.working || (f.phase == Phase.waitSpace && s.engineLive core f.ctx 2))
      && (decide (s.ck < f.due) || f.job.holdsGen)))).length

/-- Whether a generator of S is free on a core (R127). -/
def State.generatorFree (s : State) (core : Nat) : Bool := decide (s.gensInUse core < 2)

/-! ### The end of a firing -/

/-- The retire notice of an I2 operation that another device has performed, in a packet (R288). -/
def State.noticeOwner (s : State) (e : Chest) : State :=
  if e.cls = 2 ∧ e.owner ≠ s.devId then s.sendPacket e.core e.ctx e.owner 0 false (.retire e.dedup) else s

/-- Retire a Chest entry (R287, R288): its access is no longer in flight, and an I2 operation sends its retire notice. -/
def State.retireChest (s : State) (core ctx order : Nat) : State :=
  match s.chest? core ctx order with
  | none => s
  | some e =>
    let notices := if e.cls = 2 then (s.msys.tags.filter fun t => t.dev == none && t.tag == e.dedup).map fun t => (t.bank, t.tag) else []
    ((s.uncount e).noticeOwner e).modMsys fun m => { m with
      chest := m.chest.filter fun x => !(x.core == core && x.ctx == ctx && x.order == order)
      retires := m.retires ++ notices }

/-- Release what a firing holds: its tiles, its run of granules and its Chest entry (R13, R287). -/
def State.releaseFiring (s : State) (f : Firing) : State :=
  let s := (f.release ++ f.psum.toList).foldl (fun s i => s.release f.core i) s
  match f.order with
  | some o => s.retireChest f.core f.ctx o
  | none => s

/-- Remove a firing from the list. -/
def State.removeFiring (s : State) (id : Nat) : State :=
  s.modFlow fun w => { w with
    firings := w.firings.filter fun f => f.id != id
    reqs := w.reqs.filter fun r => r.who != .firing id && r.who != .psum id }

/-- A firing ends with an unrecoverable fault after it issued: it sends nothing (R116, R282). A frozen Chest retires nothing (R289):
there its entry counts as captured, and the firing ends once the context goes on. -/
def State.failFiring (s : State) (f : Firing) (kind : Nat) : State :=
  let s := (s.stepDone f).raise f.ctx f.sect kind
  match (if s.frozen f.core f.ctx then f.order.bind (s.chest? f.core f.ctx) else none) with
  | some e =>
    ((s.uncount e).modChest e.core e.ctx e.order fun c => { c with st := 2, row := e.rows }).modFiring f.id fun g =>
      { g with sealed := true, job := .none, freeCol := none }
  | none => (s.releaseFiring f).removeFiring f.id

/-- A firing has sent its last result (R19, R167, R287): a colour it frees goes back in the next ck. While a Bench entry stands beside its Chest entry it stays as sent. -/
def State.endFiring (s : State) (f : Firing) : State :=
  let s := s.stepDone f
  let s := match f.freeCol with
    | some c => s.modFlow fun w => { w with returns := w.returns ++ [(⟨f.core, f.ctx, c, s.ck + 1⟩ : ColourBack)] }
    | none => s
  if s.msys.bench.any fun b => b.fid == f.id then
    s.modFiring f.id fun g => { g with phase := .sent, outs := [], freeCol := none }
  else (s.releaseFiring f).removeFiring f.id

/-- The firings of a context that have sent and no longer stand beside a Bench entry end (R343), once their Chest is not frozen
(R289). -/
def State.endSent (s : State) (core ctx : Nat) : State :=
  if s.frozen core ctx then s
  else (s.flow.firings.filter fun f => f.core == core && f.ctx == ctx && f.phase == Phase.sent
      && !(s.msys.bench.any fun b => b.fid == f.id)).foldl (fun s f => (s.releaseFiring f).removeFiring f.id) s

/-- A field of a copy entry (R258). -/
def Copy.field (c : Copy) (lo n : Nat) : Nat := (c.entry.extractLsb' lo n).toNat

/-- Rows of an entry; 0 means 64. -/
def Copy.rows (c : Copy) : Nat := if c.field 34 6 = 0 then 64 else c.field 34 6

/-- Columns of an entry; 0 means 64. -/
def Copy.cols (c : Copy) : Nat := if c.field 40 6 = 0 then 64 else c.field 40 6

/-- The core whose replayer runs an entry. -/
def Copy.core (c : Copy) : Nat := c.field 16 9

/-- A copy node takes an unrecoverable fault (R260, R262, R267): it ends now, failed, and its section seals. Its Chest entries retire;
a frozen Chest keeps them as captured (R289), and they retire when the context goes on. -/
def State.failCopy (s : State) (ctx k kind : Nat) : State :=
  match s.ctx? ctx with
  | none => s
  | some x =>
    let word := ((x.copies[k]?).map (·.entry)).getD 0
    let core := (word.extractLsb' 16 9).toNat
    let mine (e : Chest) : Bool := e.core == core && e.ctx == ctx && e.eng == 3 && e.arg.toNat == k
    let fids := (s.msys.chest.filter mine).map (·.fid)
    let s := if s.frozen core ctx then
        (s.msys.chest.filter mine).foldl (fun s e => (s.uncount e).modChest e.core e.ctx e.order fun c => { c with st := 2 }) s
      else (s.msys.chest.filter mine).foldl (fun s e => s.retireChest e.core e.ctx e.order) s
    let s := s.modFlow fun w => { w with firings := w.firings.filter fun f => !(f.eng == .c && f.ctx == ctx && fids.contains f.id) }
    let s := s.modMsys fun m => { m with bench := m.bench.filter fun b => !(b.ctx == ctx && b.core == core && fids.contains b.fid) }
    (s.raise ctx (word.extractLsb' 26 8).toNat kind).modCtx ctx fun x => { x with
      copies := x.copies.modify k fun c => { c with running := false, ended := true }
      tend := if x.nodes.any fun n => n.copy && n.idx == k && n.st == .started then s.ck else x.tend
      nodes := modify (fun n => n.copy && n.idx == k && n.st == .started) (fun n => { n with st := .failed }) x.nodes }

/-- The copy of a firing that stands for a copy's remote access on the copy replayer (R262): its Chest entry's schedule index. -/
def State.copyOf (s : State) (f : Firing) : Option Nat :=
  if f.eng = .c then (f.order.bind (s.chest? f.core f.ctx)).map (·.arg.toNat) else none

/-- A Bench entry is freed with object access in the section of its firing (R207, R344, R348): a read sends nothing. An entry of a copy
fails the copy (R262). -/
def State.failBench (s : State) (b : Bench) : State :=
  let u := s.dropBench b.core b.idx
  match (s.chest? b.core b.ctx b.order).filter (fun e => e.eng == 3), s.firing? b.fid with
  | some e, _ => u.failCopy b.ctx e.arg.toNat 3
  | none, some f => u.failFiring f 3
  | none, none => u.raise b.ctx b.sect 3

/-! ### Replays of Bench entries (R207, R344, R345) -/

/-- Whether a Bench entry's access translates again (R207). -/
def State.benchTranslates (s : State) (b : Bench) : Bool :=
  match s.chest? b.core b.ctx b.order with
  | some e => e.handle == 0 || (s.retranslate e.handle e.gen).isSome
  | none => true

/-- Replay a Bench entry that is still there (R207, R344, R345): an access that does not translate again is not performed. -/
def State.replayBench (s : State) (b : Bench) (st : Nat) : State :=
  if (s.msys.bench.any fun e => e.core == b.core && e.idx == b.idx && e.fid == b.fid && e.order == b.order) = false then s
  else if s.benchTranslates b then s.resendBench b st
  else s.failBench b

/-- Some Bench entries in ORDER of their Chest entries (R344, R345). -/
def State.inChestOrder (s : State) (bs : List Bench) : List Bench :=
  s.msys.chest.flatMap fun e => bs.filter fun b => b.core == e.core && b.ctx == e.ctx && b.order == e.order

/-- The replay of notified entries that satisfy a test, then of the entries in state 5 that wait behind them, in ORDER (R344). An entry in
state 5 that no other in state 1, 2 or 3 holds back any more goes too: it was put behind one that has been answered since (log 76). -/
def State.resendNotified (s : State) (p : Bench → Bool) : State :=
  let es := s.msys.bench.filter fun b => p b && b.st == 2
  let goes (b : Bench) : Bool := p b && b.st == 5 && (es.any b.meets || !s.benchWaits b)
  (s.inChestOrder es ++ s.inChestOrder (s.msys.bench.filter goes)).foldl (fun s b => s.replayBench b 3) s

/-- A Bench entry is gone: those in state 5 that waited behind it alone are sent, unless the context halts or is held. -/
def State.benchAnswered (s : State) (core ctx : Nat) : State :=
  if s.runs ctx then s.resendNotified fun b => b.core == core && b.ctx == ctx else s

/-- Free a Bench entry, whose ticket holds nothing back any more (R344). -/
def State.freeBenchEntry (s : State) (core idx : Nat) : State :=
  let u := s.dropBench core idx
  match (s.benchOf core).find? fun b => b.idx == idx with
  | some b => u.benchAnswered core b.ctx
  | none => u

/-- A Bench entry is freed, and the firing beside it ends if it has sent (R343). -/
def State.freeBenchOf (s : State) (b : Bench) : State := (s.freeBenchEntry b.core b.idx).endSent b.core b.ctx

/-- Bench entries of a context on a core are all freed with object access, before any that waited behind them for another block is sent
(R344, R348). -/
def State.failBenches (s : State) (core ctx : Nat) (bs : List Bench) : State := (bs.foldl State.failBench s).benchAnswered core ctx

end Sys2Proof.Machine
end

