-- ==== Sys2Proof/Machine/Transcend.lean ====
section
/-! DEFINITION. The transcendental functions of V (R51, R145, R146), correctly rounded to a 32-bit significand.
Each function value is enclosed between two integers at a binary scale; if the enclosure does not yet settle about 70
leading bits, the scale is refined (log 13). Zeros, infinities, NaNs and exact results are decided first. -/

namespace Sys2Proof.Machine

/-- The refinement scales tried in order (log 13). -/
def scales : List Nat := [224, 448, 896, 1792, 3584]

/-- Settle an enclosure lo * 2^e ≤ v < hi * 2^e, v not a dyadic number of 70 bits: the leading bits agree. -/
def settle (lo hi : Nat) (e : Int) : Option Mag :=
  let k := Nat.log2 hi - 70
  if hi ≠ 0 ∧ 70 ≤ Nat.log2 hi ∧ lo >>> k = hi >>> k then some ⟨lo >>> k, e + k, true⟩ else none

/-- Try an enclosure at each scale in turn; the last scale's lower bound stands if none settles (log 13). -/
def refine (f : Nat → Nat × Nat × Int) : List Nat → Mag
  | [] => ⟨1, 0, true⟩
  | [n] =>
    let (lo, hi, e) := f n
    (settle lo hi e).getD ⟨max lo 1, e, true⟩
  | n :: t =>
    let (lo, hi, e) := f n
    (settle lo hi e).getD (refine f t)

/-- The absolute error bound of the fixed-point sums below, in units of the last place. -/
def slack : Nat := 2^48

/-- ln 2 at scale 2^n: the sum of 1 / (i * 2^i); each term is off by less than one unit. -/
def ln2At (n : Nat) : Nat := (List.range (n + 1)).foldl (fun acc i => acc + (1 <<< n) / ((i + 1) * 2^(i + 1))) 0

/-- e^r at scale 2^n for a fixed-point r in [0, 1): the Taylor sum, stopped after n terms. -/
def expSum (n r : Nat) : Nat :=
  ((List.range n).foldl (fun (acc : Nat × Nat) i =>
      if acc.2 = 0 then acc
      else
        let t := ((acc.2 * r) >>> n) / (i + 1)
        (acc.1 + t, t)) (1 <<< n, 1 <<< n)).1

/-- A signed magnitude as a fixed-point integer at scale 2^n, rounded down. -/
def fixedAt (n : Nat) (s : Bool) (m : Nat) (e : Int) : Int :=
  let k : Int := e + n
  let v : Int := (if s then -(m : Int) else m)
  if 0 ≤ k then v * 2^k.toNat else v.fdiv (2^(-k).toNat)

/-- e^x for a fixed-point x at scale 2^n: the binary exponent k and e^(x - k ln 2) at scale 2^n. -/
def expAt (n : Nat) (x : Int) : Int × Nat :=
  let l := ln2At (n + 40)
  let k := (x * 2^40).fdiv l
  let r := (x * 2^40 - k * l).toNat >>> 40
  (k, expSum n r)

/-- The binade of a nonzero magnitude. -/
def binade (m : Nat) (e : Int) : Int := (Nat.log2 m : Int) + e

/-- A magnitude just above or just below 1 by less than 2^-80, for arguments below 2^-100. -/
def nearOne (below : Bool) : Mag := if below then ⟨2^80 - 1, -80, true⟩ else ⟨2^80, -80, true⟩

/-- e^x for nonzero finite x (R145 VEXP). -/
def expMag (s : Bool) (m : Nat) (e : Int) : Mag :=
  if binade m e < -100 then nearOne s
  else if 20 < binade m e then (if s then ⟨1, -40000, true⟩ else ⟨1, 40000, true⟩)
  else refine (fun n =>
    let (k, f) := expAt n (fixedAt n s m e)
    (f - slack, f + slack, k - n)) scales

/-- 2^x for finite x that is no integer (R145 VEXP2). -/
def exp2Mag (s : Bool) (m : Nat) (e : Int) : Mag :=
  if binade m e < -100 then nearOne s
  else if 20 < binade m e then (if s then ⟨1, -40000, true⟩ else ⟨1, 40000, true⟩)
  else refine (fun n =>
    let x := fixedAt n s m e
    let k := x.fdiv (2^n)
    let f := expSum n (((x - k * 2^n).toNat * ln2At n) >>> n)
    (f - slack, f + slack, k - n)) scales

/-- Whether m * 2^e is an integer, and which. -/
def asInteger (s : Bool) (m : Nat) (e : Int) : Option Int :=
  let k := (-e).toNat
  if 0 ≤ e then (if e ≤ 20 then some ((if s then -1 else 1) * (m <<< e.toNat : Nat)) else none)
  else if m % 2^k = 0 then some ((if s then -1 else 1) * (m >>> k : Nat)) else none

/-- ln t at scale 2^n, halved, for z = (t - 1) / (t + 1) at scale 2^n: the sum of z^(2i+1) / (2i+1). -/
def atanhSum (n z : Nat) : Nat :=
  let z2 := (z * z) >>> n
  ((List.range n).foldl (fun (acc : Nat × Nat) i =>
      if acc.2 = 0 then acc else (acc.1 + acc.2 / (2 * i + 1), (acc.2 * z2) >>> n)) (0, z)).1

/-- log2 x for positive x that is no power of two, as a signed magnitude (R145 VLOG2). -/
def log2Mag (m : Nat) (e : Int) : Bool × Mag :=
  let k := binade m e
  let top := Nat.log2 m
  let neg : Bool := decide (k < 0)
  (neg, refine (fun n =>
    let one := 1 <<< n
    let t := (m <<< n) >>> top
    let z := ((t - one) <<< n) / (t + one)
    let y : Int := ((2 * atanhSum n z) <<< n) / ln2At n
    let v : Nat := (k * one + y).natAbs
    (v - slack, v + slack, -(n : Int))) scales)

/-- tanh |x| for nonzero finite x (R145 VTANH). -/
def tanhMag (m : Nat) (e : Int) : Mag :=
  if binade m e < -60 then ⟨(m <<< 40) - 1, e - 40, true⟩
  else if 6 < binade m e then nearOne true
  else refine (fun n =>
    let (k, f) := expAt n (2 * fixedAt n false m e)
    let lo := (f - slack) <<< k.toNat
    let hi := (f + slack) <<< k.toNat
    let one := 1 <<< n
    (((lo - one) <<< n) / (lo + one), ((hi - one) <<< n) / (hi + one) + 1, -(n : Int))) scales

/-- 1 / (1 + e^-x) for nonzero finite x (R145 VSIGM). -/
def sigmMag (s : Bool) (m : Nat) (e : Int) : Mag :=
  if binade m e < -100 then (let h := nearOne s; ⟨h.m, h.e - 1, true⟩)
  else if 20 < binade m e then (if s then ⟨1, -40000, true⟩ else nearOne true)
  else if s = false ∧ 8 < binade m e then nearOne true
  else refine (fun n =>
    let (k, f) := expAt n (fixedAt n false m e)
    let lo := (f - slack) <<< k.toNat
    let hi := (f + slack) <<< k.toNat
    let one := 1 <<< n
    if s then
      ((1 <<< (2 * n + k.toNat)) / (one + hi), (1 <<< (2 * n + k.toNat)) / (one + lo) + 1, -(n : Int) - k)
    else ((lo <<< n) / (one + lo), (hi <<< n) / (one + hi) + 1, -(n : Int))) scales

/-- Round a magnitude to the 32-bit significand target (R51). -/
def round32 (mode : RM) (s : Bool) (x : Mag) : Val × Flags := roundTo xf32Target mode s x

/-- VEXP of one element (R145, R146). -/
def vexp (mode : RM) : Val → Val × Flags
  | .nan => (.nan, noFlags)
  | .inf s => (if s then .zero false else .inf false, noFlags)
  | .fin s m e => if m = 0 then (.fin false 1 0, noFlags) else round32 mode false (expMag s m e)

/-- VEXP2 of one element: exact for an integer in range (R146). -/
def vexp2 (mode : RM) : Val → Val × Flags
  | .nan => (.nan, noFlags)
  | .inf s => (if s then .zero false else .inf false, noFlags)
  | .fin s m e =>
    if m = 0 then (.fin false 1 0, noFlags)
    else match asInteger s m e with
      | some k => if 40000 < k ∨ k < -40000 then round32 mode false (exp2Mag s m (max e 0 + 30)) else round32 mode false ⟨1, k, false⟩
      | none => round32 mode false (exp2Mag s m e)

/-- VLOG2 of one element (R146): a power of two gives its exponent exactly. -/
def vlog2 (mode : RM) : Val → Val × Flags
  | .nan => (.nan, noFlags)
  | .inf s => if s then (.nan, flagNV) else (.inf false, noFlags)
  | .fin s m e =>
    if m = 0 then (.inf true, { dz := true })
    else if s then (.nan, flagNV)
    else if m = 2^(Nat.log2 m) then ((Val.ofInt (binade m e)).round xf32Target mode)
    else
      let (neg, x) := log2Mag m e
      round32 mode neg x

/-- VTANH of one element (R146). -/
def vtanh (mode : RM) : Val → Val × Flags
  | .nan => (.nan, noFlags)
  | .inf s => (.fin s 1 0, noFlags)
  | .fin s m e => if m = 0 then (.fin s 0 0, noFlags) else round32 mode s (tanhMag m e)

/-- VSIGM of one element (R146). -/
def vsigm (mode : RM) : Val → Val × Flags
  | .nan => (.nan, noFlags)
  | .inf s => (if s then .zero false else .fin false 1 0, noFlags)
  | .fin s m e => if m = 0 then (.fin false 1 (-1), noFlags) else round32 mode false (sigmMag s m e)

/-- VRCP of one element (R146). -/
def vrcp (mode : RM) : Val → Val × Flags
  | .nan => (.nan, noFlags)
  | .inf s => (.zero s, noFlags)
  | .fin s m e => if m = 0 then (.inf s, { dz := true }) else round32 mode s (divMag 1 0 m e)

/-- VRSQ of one element (R146): the reciprocal of -0 is -infinity with DZ, as the table states. -/
def vrsq (mode : RM) : Val → Val × Flags
  | .nan => (.nan, noFlags)
  | .inf s => if s then (.nan, flagNV) else (.zero false, noFlags)
  | .fin s m e =>
    if m = 0 then (.inf s, { dz := true })
    else if s then (.nan, flagNV)
    else round32 mode false (rsqrtMag m e)

/-- VSQRT of one element, at full XF precision (R146). -/
def vsqrt (mode : RM) : Val → Val × Flags
  | .nan => (.nan, noFlags)
  | .inf s => if s then (.nan, flagNV) else (.inf false, noFlags)
  | .fin s m e =>
    if m = 0 then (.fin s 0 0, noFlags)
    else if s then (.nan, flagNV)
    else roundTo xfTarget mode false (sqrtMag m e)

/-- VDIV of two elements, at full XF precision (R146). -/
def vdiv (mode : RM) (x y : Val) : Val × Flags :=
  match divVal x y with
  | .inl r => r
  | .inr (s, q) => roundTo xfTarget mode s q

end Sys2Proof.Machine
end

