-- ==== Sys2Proof/Machine/Operands.lean ====
section
/-! DEFINITION. How operators read their sources (R19, R116, R117, R136, R137, R182). -/

namespace Sys2Proof.Machine

/-- An operand as its source gives it: a tile token, a scalar token, a literal or zero or iter word, or nothing the
opcode accepts. -/
inductive Operand where
  | tile (t : Token)
  | scalar (t : Token)
  | lit (w : Word)
  | zero
  | iter (tag : BitVec 32)
  | none
deriving DecidableEq, Repr

/-- Read a source whose code is among those listed (R19, R116, R136). -/
def operand (f : Firing) (sl : Slot) (allowed : List Nat) (src : BitVec 3) : Operand :=
  if allowed.contains src.toNat then
    match src.toNat with
    | 0 | 1 =>
      match f.tok src with
      | some t => if t.isTile then .tile t else if t.kind = 1 ∨ t.kind = 6 then .scalar t else .none
      | Option.none => .none
    | 2 => .lit sl.lit0
    | 3 => .lit sl.lit1
    | 5 => .zero
    | 6 => .iter f.tag
    | _ => .none
  else .none

/-- Whether an operand is poison. -/
def Operand.poison : Operand → Bool
  | .tile t => t.isPoison
  | .scalar t => t.isPoison
  | _ => false

/-- Whether an operand is a tile. -/
def Operand.isTile : Operand → Bool
  | .tile _ => true
  | _ => false

/-- Whether an operand is there. -/
def Operand.ok : Operand → Bool
  | .none => false
  | _ => true

/-- An FP64 pattern read as a float: a signalling NaN becomes quiet and sets NV (R117, R137). -/
def readFp64 (w : Word) : Val × Flags :=
  let (v, snan) := decodeFp64 w
  (v, if snan then flagNV else noFlags)

/-- A scalar operand read as a float (R117, R137). -/
def Operand.float : Operand → Val × Flags
  | .scalar t => readFp64 t.w0
  | .lit w => readFp64 w
  | .iter tag => (Val.ofInt tag.toNat, noFlags)
  | _ => (Val.zero false, noFlags)

/-- A scalar operand read as an integer (R137). -/
def Operand.int : Operand → Int
  | .scalar t => t.w0.toInt
  | .lit w => w.toInt
  | .iter tag => tag.toNat
  | _ => 0

/-- The descriptor of a tile operand. -/
def Operand.desc : Operand → Option Desc
  | .tile t => some t.desc
  | _ => Option.none

/-- Whether a tile operand has one of the listed TKINDs; a scalar passes. -/
def Operand.kindIn (ks : List Nat) : Operand → Bool
  | .tile t => ks.contains t.desc.kind
  | _ => true

/-- Rows and columns of a tile operand; a scalar counts as 1×1. -/
def Operand.dims : Operand → Nat × Nat
  | .tile t => (t.desc.rows, t.desc.cols)
  | _ => (1, 1)

/-- Rows of a tile operand, 0 for a scalar. -/
def Operand.tileRows : Operand → Nat
  | .tile t => t.desc.rows
  | _ => 0

/-- The truth of an operand (R182). -/
def Operand.truth (s : State) (core : Nat) : Operand → Bool
  | .scalar t => t.w0 != 0 && t.w0 != 0x8000000000000000
  | .lit w => w != 0 && w != 0x8000000000000000
  | .iter tag => tag != 0
  | .tile t =>
    let tl := s.tile core t
    let nz (v : Option Val) : Bool := match v with
      | some v => !v.isZero
      | Option.none => false
    if tl.kind = 3 then nz tl.vals[0]? || nz tl.vals[tl.rows * tl.cols]? else nz tl.vals[0]?
  | _ => false

/-- Bits hi to lo of a literal. -/
def litBits (w : Word) (hi lo : Nat) : Nat := (w.extractLsb' lo (hi - lo + 1)).toNat

/-- A count field in which 0 means 64 (R120, R128, R144). -/
def lit64 (w : Word) (hi lo : Nat) : Nat := if litBits w hi lo = 0 then 64 else litBits w hi lo

/-- Whether the firing of a list of tokens reads a tile byte with an uncorrectable ECC error (R282). -/
def State.anyEcc (s : State) (core : Nat) (ts : List Token) : Bool := ts.any (s.tileEcc core)

end Sys2Proof.Machine
end

