-- ==== Sys2Proof/Machine/Vector.lean ====
section
/-! DEFINITION. The vector operators (R136 to R158). -/

namespace Sys2Proof.Machine

/-- The shape and form of a result tile: rows, columns, TKIND, E16, P. -/
structure Shape where
  rows : Nat
  cols : Nat
  kind : Nat := 0
  e16 : Bool := true
  p : Nat := 8

/-- The descriptor word of a tile of a shape, before it is placed. -/
def Shape.desc (h : Shape) (psn : Bool) : Word :=
  Desc.word { addr := 0, rows := h.rows, cols := h.cols, p := h.p, e16 := h.e16, kind := h.kind, psn := psn, alloc := 0, rest := 0 }

/-- XF form (R139). -/
def xfShape (r c : Nat) : Shape := { rows := r, cols := c }

/-- Integer form (R139). -/
def intShape (r c : Nat) : Shape := { rows := r, cols := c, e16 := false }

/-- A mask (R139). -/
def maskShape (r c : Nat) : Shape := { rows := r, cols := c, kind := 2, e16 := false, p := 0 }

/-- Kept form: as operand A (R139). -/
def keptShape (d : Desc) (r c : Nat) : Shape := { rows := r, cols := c, kind := d.kind, e16 := d.e16, p := d.p }

/-- A V firing (R136 to R142): `fault` from its checks, the result shapes with their destination codes, the occupancy and
the debit, and the tiles it computes. A poison operand sends poison-tiles of the same shapes (R140). -/
def vPlan (s : State) (f : Firing) (ops : List Operand) (fault : Option Nat) (res : List (List Nat × Shape)) (occ g : Nat)
    (run : Unit → List Tile × Flags) : Plan :=
  match fault with
  | some k => Plan.faults k
  | none =>
    if ops.any Operand.poison then
      { cost := 1, occ := 1,
        effect := fun s col tag =>
          { st := s, outs := res.map fun (cs, h) => { codes := cs, val := .newTile (h.desc true) [] true, col := col, tag := tag } } }
    else if s.anyEcc f.core (ops.filterMap fun o => match o with | .tile t => some t | _ => none) then Plan.faults 17
    else
      { cost := g, occ := occ,
        effect := fun s col tag =>
          let (ts, fl) := run ()
          { st := s, flags := fl,
            outs := List.zipWith (fun (cs, _) (t : Tile) => { codes := cs, val := .newTile (t.desc false) t.bytes false, col := col, tag := tag }) res ts } }

/-- ⌈n / k⌉. -/
def ceilDiv (n k : Nat) : Nat := (n + k - 1) / k

/-- Stretch a row-major list of r×c to ro×co (R138). -/
def stretch {α : Type} (r c ro co : Nat) (l : List α) : List α :=
  let row (x : List α) : List α := if c = co then x else x.flatMap fun v => List.replicate co v
  let rows := (rowsOf r c l).map row
  if r = ro then rows.flatten else (List.replicate ro rows.flatten).flatten

/-- The result shape of two operands, or a fault (R138). -/
def joinDims (a b : Nat × Nat) : Option (Nat × Nat) :=
  if (a.1 = b.1 ∨ a.1 = 1 ∨ b.1 = 1) ∧ (a.2 = b.2 ∨ a.2 = 1 ∨ b.2 = 1) then some (max a.1 b.1, max a.2 b.2) else none

/-- The values of a float operand, stretched (R136, R137). -/
def floatVals (s : State) (f : Firing) (o : Operand) (r c : Nat) : List Val × Flags :=
  match o with
  | .tile t => let tl := s.tile f.core t; (stretch tl.rows tl.cols r c tl.vals, noFlags)
  | o => let (v, fl) := o.float; (List.replicate (r * c) v, fl)

/-- An element read as a 64-bit signed integer (R151). -/
def intOfVal (v : Val) : Int × Flags := v.toInt64

/-- The values of an integer operand, stretched, each with the flags of its reading (R137, R151). -/
def intVals (s : State) (f : Firing) (o : Operand) (r c : Nat) : List (Int × Flags) :=
  match o with
  | .tile t => let tl := s.tile f.core t; stretch tl.rows tl.cols r c (tl.vals.map intOfVal)
  | o => List.replicate (r * c) (o.int, noFlags)

/-- The rounding mode of a V or M firing (R39). -/
def fireMode (y : CoreCtx) (sl : Slot) : RM := RM.ofCode (modeCode y sl.rm)

/-- The source codes of a second V operand (R145). -/
def srcBCodes : List Nat := [0, 1, 2, 3, 5, 6]

/-- Split values and flags. -/
def gather (l : List (Val × Flags)) : List Val × Flags := (l.map (·.1), unionFlags (l.map (·.2)))

/-- A tile in integer form (R139). -/
def intTile (r c : Nat) (xs : List Int) : Tile :=
  { kind := 0, rows := r, cols := c, e16 := false, p := 8, elems := xs.map fun i => ⟨decide (i < 0), 190, i.natAbs⟩, ints := [] }

/-- A complex XF tile from its two parts. -/
def complexXf (r c : Nat) (vs : List Val) : Tile :=
  { kind := 3, rows := r, cols := c, e16 := true, p := 8, elems := vs.map (Elem.ofVal true 8), ints := [] }

/-- The operands of a binary V operator, at least one a tile (R136, R145). -/
def vBinary (f : Firing) (sl : Slot) (o : OpFields) : Operand × Operand × Option Nat :=
  let a := operand f sl [0, 1] o.srcA
  let b := operand f sl srcBCodes o.srcB
  (a, b, if a.ok && b.ok && (a.isTile || b.isTile) then none else some 1)

/-- The operand of a unary V operator: a tile, with srcB 5 (R136, R145); every other srcB raises operand (log 61).
It comes by port a or b (log 85). -/
def vUnary (f : Firing) (sl : Slot) (o : OpFields) : Operand × Option Nat :=
  let a := operand f sl [0, 1] o.srcA
  (a, if a.isTile && o.srcB == 5 then none else some 1)

/-- The first fault of a list. -/
def firstFault (l : List (Option Nat)) : Option Nat := (l.filterMap id).head?

/-- A condition that raises operand when false. -/
def need (b : Bool) (kind : Nat) : Option Nat := if b then none else some kind

/-- The element-by-element float mould (R145): `cplx` says that two complex operands are accepted. -/
def vFloat2 (cplx : Bool) (g : RM → Val → Val → Val × Flags) (o : OpFields) (s : State) (f : Firing) (sl : Slot) (y : CoreCtx) (_ : Ctx) : Plan :=
  let (a, b, bad) := vBinary f sl o
  let both := (a.desc.map (·.kind)) == some 3 && (b.desc.map (·.kind)) == some 3
  let kinds := if cplx && both then none else need (a.kindIn [0, 1, 2] && b.kindIn [0, 1, 2]) 1
  let dims := joinDims a.dims b.dims
  let (r, c) := dims.getD (1, 1)
  let fault := firstFault [bad, kinds, need dims.isSome 2]
  let mode := fireMode y sl
  let h : Shape := if both then { rows := r, cols := c, kind := 3 } else xfShape r c
  vPlan s f [a, b] fault [(opDests o, h)] (ceilDiv r 4) (max r (max a.tileRows b.tileRows)) fun _ =>
    if both then
      let part (t : Operand) (im : Bool) : List Val := match t with
        | .tile t =>
          let tl := s.tile f.core t
          let n := tl.rows * tl.cols
          stretch tl.rows tl.cols r c (if im then tl.vals.drop n else tl.vals.take n)
        | _ => []
      let (v, fl) := gather (List.zipWith (g mode) (part a false ++ part a true) (part b false ++ part b true))
      ([complexXf r c v], fl)
    else
      let (xs, f1) := floatVals s f a r c
      let (ys, f2) := floatVals s f b r c
      let (v, fl) := gather (List.zipWith (g mode) xs ys)
      ([xfTile r c v], (fl.or f1).or f2)

/-- The unary float mould with its occupancy rate (R142, R145). -/
def vFloat1 (rate : Nat) (g : RM → Val → Val × Flags) (o : OpFields) (s : State) (f : Firing) (sl : Slot) (y : CoreCtx) (_ : Ctx) : Plan :=
  let (a, bad) := vUnary f sl o
  let (r, c) := a.dims
  let mode := fireMode y sl
  vPlan s f [a] (firstFault [bad, need (a.kindIn [0, 1, 2]) 1]) [(opDests o, xfShape r c)] (ceilDiv r rate) r fun _ =>
    let (xs, f1) := floatVals s f a r c
    let (v, fl) := gather (xs.map (g mode))
    ([xfTile r c v], fl.or f1)

/-- x + y rounded once (R145 VADD). -/
def addRound (mode : RM) (x y : Val) : Val × Flags :=
  let (v, f) := addVal mode x y
  let (w, g) := roundXf mode v
  (w, f.or g)

/-- x * y rounded once (R145 VMUL). -/
def mulRound (mode : RM) (x y : Val) : Val × Flags :=
  let (v, f) := mulVal x y
  let (w, g) := roundXf mode v
  (w, f.or g)

/-- x * y + c rounded once (R145 VFMA); a quiet NaN operand c gives a NaN and no flag, also of 0 × ∞ (R44). -/
def fmaRound (c : Val) (mode : RM) (x y : Val) : Val × Flags :=
  let (v, f) := mulVal x y
  let (u, g) := addVal mode v c
  let (w, h) := roundXf mode u
  if c.isNaN then (.nan, noFlags) else (w, (f.or g).or h)

/-- VADD (R145). -/
def planVadd := vFloat2 true addRound

/-- VSUB (R145). -/
def planVsub := vFloat2 true fun m x y => addRound m x y.neg

/-- VMUL (R145). -/
def planVmul := vFloat2 false mulRound

/-- A fused multiply-add: lit1 is read as a float (R137, R145); `neg` subtracts it. -/
def vFused (neg : Bool) (o : OpFields) (s : State) (f : Firing) (sl : Slot) (y : CoreCtx) (x : Ctx) : Plan :=
  let (c, fl) := readFp64 sl.lit1
  let p := vFloat2 false (fmaRound (if neg then c.neg else c)) o s f sl y x
  { p with effect := fun s col tag =>
      let e := p.effect s col tag
      if (f.toks.any Token.isPoison) then e else { e with flags := e.flags.or fl } }

/-- VFMA (R145). -/
def planVfma := vFused false

/-- VFMS (R145). -/
def planVfms := vFused true

/-- VDIV: its firing occupies V for one ck per row (R142, R145). -/
def planVdiv (o : OpFields) (s : State) (f : Firing) (sl : Slot) (y : CoreCtx) (x : Ctx) : Plan :=
  let p := vFloat2 false vdiv o s f sl y x
  let (a, b, _) := vBinary f sl o
  let r := ((joinDims a.dims b.dims).getD (1, 1)).1
  { p with occ := if f.toks.any Token.isPoison then 1 else r }

/-- VSQRT (R145). -/
def planVsqrt := vFloat1 1 vsqrt
/-- VRCP (R145). -/
def planVrcp := vFloat1 2 vrcp
/-- VRSQ (R145). -/
def planVrsq := vFloat1 2 vrsq
/-- VEXP (R145). -/
def planVexp := vFloat1 2 vexp
/-- VEXP2 (R145). -/
def planVexp2 := vFloat1 2 vexp2
/-- VLOG2 (R145). -/
def planVlog2 := vFloat1 2 vlog2
/-- VTANH (R145). -/
def planVtanh := vFloat1 2 vtanh
/-- VSIGM (R145). -/
def planVsigm := vFloat1 2 vsigm
/-- VMAX (R145). -/
def planVmax := vFloat2 false fun _ x y => (x.max y, noFlags)
/-- VMIN (R145). -/
def planVmin := vFloat2 false fun _ x y => (x.min y, noFlags)

/-- A sign change in kept form (R139, R145): a dense or, for VNEG, complex element keeps its exponent and digits; a NaN
becomes the canonical one. -/
def keepSign (e16 : Bool) (p : Nat) (x : Elem) (s : Bool) : Elem :=
  if (Elem.val e16 p x).isNaN then nanElem e16 p else { x with s := s }

/-- VABS and VNEG (R139, R145). -/
def vSign1 (cplx : Bool) (g : Bool → Bool) (o : OpFields) (s : State) (f : Firing) (sl : Slot) (_ : CoreCtx) (_ : Ctx) : Plan :=
  let (a, bad) := vUnary f sl o
  let (r, c) := a.dims
  let d := a.desc.getD (Desc.ofWords 0 0)
  let kept := decide (d.kind = 0 ∨ d.kind = 3)
  let h := if kept then keptShape d r c else xfShape r c
  vPlan s f [a] (firstFault [bad, need (a.kindIn (if cplx then [0, 1, 2, 3] else [0, 1, 2])) 1]) [(opDests o, h)] (ceilDiv r 4) r fun _ =>
    match a with
    | .tile t =>
      let tl := s.tile f.core t
      if kept then ([{ tl with elems := tl.elems.map fun x => keepSign tl.e16 tl.p x (g x.s) }], noFlags)
      else ([xfTile r c (tl.vals.map fun v => v.withSign (g v.sign))], noFlags)
    | _ => ([], noFlags)

/-- VABS (R145). -/
def planVabs := vSign1 false fun _ => false

/-- VNEG (R145). -/
def planVneg := vSign1 true fun b => !b

/-- VCPS (R139, R145): |x| with the sign of y, kept form of a dense A. The kept form itself sets no flag; that y is read as a value sets NV
where it is a signalling NaN (R137; log 84). -/
def planVcps (o : OpFields) (s : State) (f : Firing) (sl : Slot) (_ : CoreCtx) (_ : Ctx) : Plan :=
  let (a, b, bad) := vBinary f sl o
  let dims := joinDims a.dims b.dims
  let (r, c) := dims.getD (1, 1)
  let d := a.desc.getD (Desc.ofWords 0 0)
  let kept := a.isTile && d.kind == 0
  vPlan s f [a, b] (firstFault [bad, need (a.kindIn [0, 1, 2] && b.kindIn [0, 1, 2]) 1, need dims.isSome 2])
    [(opDests o, if kept then keptShape d r c else xfShape r c)] (ceilDiv r 4) (max r (max a.tileRows b.tileRows)) fun _ =>
    let (ys, f2) := floatVals s f b r c
    match a with
    | .tile t =>
      let tl := s.tile f.core t
      if kept then
        let xs := stretch tl.rows tl.cols r c tl.elems
        ([{ tl with rows := r, cols := c, elems := List.zipWith (fun x (y : Val) => keepSign tl.e16 tl.p x y.sign) xs ys }], f2)
      else
        let (xs, _) := floatVals s f a r c
        ([xfTile r c (List.zipWith (fun (x y : Val) => x.withSign y.sign) xs ys)], f2)
    | _ =>
      let (xs, f1) := floatVals s f a r c
      ([xfTile r c (List.zipWith (fun (x y : Val) => x.withSign y.sign) xs ys)], f1.or f2)

/-- Multiply by 2^n and round (R147); a NaN or infinity is unchanged. -/
def scaleVal (mode : RM) (v : Val) (n : Int) : Val × Flags :=
  let k := max (-65536) (min 65535 n)
  match v with
  | .fin s m e => roundXf mode (.fin s m (e + k))
  | v => (v, noFlags)

/-- VSCLX (R147). -/
def planVsclx (o : OpFields) (s : State) (f : Firing) (sl : Slot) (y : CoreCtx) (_ : Ctx) : Plan :=
  let (a, b, bad) := vBinary f sl o
  let dims := joinDims a.dims b.dims
  let (r, c) := dims.getD (1, 1)
  let mode := fireMode y sl
  vPlan s f [a, b] (firstFault [bad, need (a.isTile && a.kindIn [0] && b.kindIn [0, 1, 2]) 1, need dims.isSome 2])
    [(opDests o, xfShape r c)] (ceilDiv r 4) (max r (max a.tileRows b.tileRows)) fun _ =>
    let (xs, _) := floatVals s f a r c
    let (v, fl) := gather (List.zipWith (fun x (n : Int × Flags) =>
      let (w, g) := scaleVal mode x n.1
      (w, (n.2.or g).element)) xs (intVals s f b r c))
    ([xfTile r c v], fl)

/-- VCVT's target form for a shape (R148), from lit0. -/
def cvtShape (lit : Word) (cplx : Bool) (r c : Nat) : Shape :=
  let fmt := litBits lit 11 8
  let k := if cplx then 3 else 0
  if fmt = 15 then
    { rows := r, cols := c, kind := k, e16 := litBits lit 3 3 = 0, p := if litBits lit 7 4 = 0 then 8 else litBits lit 7 4 }
  else
    let (kind, e16, p) := fmtPlane fmt
    { rows := r, cols := c, kind := if kind = 0 then k else kind, e16 := e16, p := p }

/-- VCVT of one value (R148): the element of a dense or complex result, its integer for a half-digit or mask. -/
def cvtVal (lit : Word) (mode : RM) (v : Val) : Elem × Int × Flags :=
  let fmt := litBits lit 11 8
  if fmt = 15 then
    let h := cvtShape lit false 1 1
    let (w, fl) := v.round (planeTarget h.e16 h.p) mode
    (Elem.ofVal h.e16 h.p w, 0, fl)
  else
    let (bits, fl) := storeVal fmt (litBits lit 2 2 = 1) mode v
    if fmt = 10 ∨ fmt = 11 ∨ fmt = 12 then (⟨false, 0, 0⟩, fmtInt fmt bits, fl) else ((loadElem fmt bits).1, 0, fl)

/-- VCVT (R148). -/
def planVcvt (o : OpFields) (s : State) (f : Firing) (sl : Slot) (y : CoreCtx) (_ : Ctx) : Plan :=
  let (a, bad) := vUnary f sl o
  let (r, c) := a.dims
  let cplx := (a.desc.map (·.kind)) == some 3
  let fmt := litBits sl.lit0 11 8
  let mode := fireMode y sl
  let h := cvtShape sl.lit0 cplx r c
  vPlan s f [a] (firstFault [bad, need (fmt != 14 && !(fmt == 15 && decide (9 ≤ litBits sl.lit0 7 4)) && !(cplx && (fmt == 10 || fmt == 11 || fmt == 12))) 1])
    [(opDests o, h)] (ceilDiv r 4) r fun _ =>
    match a with
    | .tile t =>
      let xs := (s.tile f.core t).vals.map (cvtVal sl.lit0 mode)
      ([{ kind := h.kind, rows := r, cols := c, e16 := h.e16, p := h.p,
          elems := if h.kind = 0 ∨ h.kind = 3 then xs.map (·.1) else [], ints := if h.kind = 1 ∨ h.kind = 2 then xs.map (·.2.1) else [] }],
       unionFlags (xs.map (·.2.2)))
    | _ => ([], noFlags)

/-- The quiet comparisons (R149): no operand sets a flag. -/
def vCompare (g : Option Ordering → Bool) (o : OpFields) (s : State) (f : Firing) (sl : Slot) (_ : CoreCtx) (_ : Ctx) : Plan :=
  let (a, b, bad) := vBinary f sl o
  let dims := joinDims a.dims b.dims
  let (r, c) := dims.getD (1, 1)
  vPlan s f [a, b] (firstFault [bad, need (a.kindIn [0, 1, 2] && b.kindIn [0, 1, 2]) 1, need dims.isSome 2])
    [(opDests o, maskShape r c)] (ceilDiv r 4) (max r (max a.tileRows b.tileRows)) fun _ =>
    ([maskTile r c (List.zipWith (fun x y => g (Val.cmp x y)) (floatVals s f a r c).1 (floatVals s f b r c).1)], noFlags)

/-- VCMP.EQ (R149). -/
def planVcmpEq := vCompare fun q => q == some .eq
/-- VCMP.NE (R149). -/
def planVcmpNe := vCompare fun q => q != some .eq
/-- VCMP.LT (R149). -/
def planVcmpLt := vCompare fun q => q == some .lt
/-- VCMP.LE (R149). -/
def planVcmpLe := vCompare fun q => q == some .lt || q == some .eq
/-- VCMP.UN (R149). -/
def planVcmpUn := vCompare fun q => q == none

/-- VSELM (R150). -/
def planVselm (o : OpFields) (s : State) (f : Firing) (sl : Slot) (_ : CoreCtx) (_ : Ctx) : Plan :=
  let a := operand f sl [0, 1] o.srcA
  let b := operand f sl [0, 1] o.srcB
  let dims := joinDims a.dims b.dims
  let (r, c) := dims.getD (1, 1)
  vPlan s f [a, b] (firstFault [need (a.isTile && b.isTile && a.kindIn [2] && b.kindIn [0]) 1, need dims.isSome 2])
    [(opDests o, xfShape r c)] (ceilDiv r 4) (max r (max a.tileRows b.tileRows)) fun _ =>
    let (fill, fl) := readFp64 sl.lit1
    ([xfTile r c (List.zipWith (fun (m x : Val) => if m.isZero then fill else x) (floatVals s f a r c).1 (floatVals s f b r c).1)], fl)

/-- A result that wraps modulo 2^64 as two's complement (R152). -/
def wrap64 (i : Int) : Int := (BitVec.ofInt 64 i).toInt

/-- The integer mould (R152): `logic` says that two masks give a mask. -/
def vInt2 (logic : Bool) (g : Word → Word → Word) (o : OpFields) (s : State) (f : Firing) (sl : Slot) (_ : CoreCtx) (_ : Ctx) : Plan :=
  let (a, b, bad) := vBinary f sl o
  let dims := joinDims a.dims b.dims
  let (r, c) := dims.getD (1, 1)
  let mask := logic && (a.desc.map (·.kind)) == some 2 && (b.desc.map (·.kind)) == some 2
  vPlan s f [a, b] (firstFault [bad, need (a.kindIn [0, 1, 2] && b.kindIn [0, 1, 2]) 1, need dims.isSome 2])
    [(opDests o, if mask then maskShape r c else intShape r c)] (ceilDiv r 4) (max r (max a.tileRows b.tileRows)) fun _ =>
    let rs := List.zipWith (fun (x y : Int × Flags) => ((g (BitVec.ofInt 64 x.1) (BitVec.ofInt 64 y.1)).toInt, (x.2.or y.2).element))
      (intVals s f a r c) (intVals s f b r c)
    let zs := rs.map (·.1)
    (if mask then [maskTile r c (zs.map fun z => decide (z ≠ 0))] else [intTile r c zs], unionFlags (rs.map (·.2)))

/-- VIADD (R152). -/
def planViadd := vInt2 false fun x y => x + y
/-- VISUB (R152). -/
def planVisub := vInt2 false fun x y => x - y
/-- VIMUL (R152). -/
def planVimul := vInt2 false fun x y => x * y
/-- VIAND (R152). -/
def planViand := vInt2 true fun x y => x &&& y
/-- VIOR (R152). -/
def planVior := vInt2 true fun x y => x ||| y
/-- VIXOR (R152). -/
def planVixor := vInt2 true fun x y => x ^^^ y
/-- VISHL (R152). -/
def planVishl := vInt2 false fun x y => x <<< (y.toNat % 64)
/-- VISHR (R152). -/
def planVishr := vInt2 false fun x y => x.sshiftRight (y.toNat % 64)
/-- VIMIN (R152). -/
def planVimin := vInt2 false fun x y => if x.sle y then x else y
/-- VIMAX (R152). -/
def planVimax := vInt2 false fun x y => if x.sle y then y else x

/-- The sum rule of R153: R47 on all the terms at once with acc +0, rounded in the firing's mode. -/
def sumRule (mode : RM) (xs : List Val) : Val × Flags := groupSum mode (xs.map fun x => (x, false)) (Val.zero false)

/-- The maximum or minimum of a nonempty list: NaNs are ignored unless every element is one (R153). -/
def pickRule (g : Val → Val → Val) : List Val → Val × Flags
  | [] => (.nan, noFlags)
  | x :: t => (t.foldl g x, noFlags)

/-- The reductions (R153): along rows or along columns; the tile is on port a. -/
def vReduce (cols : Bool) (g : RM → List Val → Val × Flags) (o : OpFields) (s : State) (f : Firing) (sl : Slot) (y : CoreCtx) (_ : Ctx) : Plan :=
  let (a, bad) := vUnary f sl o
  let (r, c) := a.dims
  let mode := fireMode y sl
  let h := if cols then xfShape 1 c else xfShape r 1
  vPlan s f [a] (firstFault [bad, need (o.srcA == 0) 1, need (a.kindIn [0]) 1]) [(opDests o, h)] (ceilDiv r 4 + 4) r fun _ =>
    let rows := rowsOf r c (floatVals s f a r c).1
    let (v, fl) := gather ((if cols then transposeRows c rows else rows).map (g mode))
    ([xfTile h.rows h.cols v], fl)

/-- RSUMR (R153). -/
def planRsumr := vReduce false sumRule
/-- RMAXR (R153). -/
def planRmaxr := vReduce false fun _ => pickRule Val.max
/-- RMINR (R153). -/
def planRminr := vReduce false fun _ => pickRule Val.min
/-- RSUMC (R153). -/
def planRsumc := vReduce true sumRule
/-- RMAXC (R153). -/
def planRmaxc := vReduce true fun _ => pickRule Val.max

/-- Whether a row operand is r×1, 1×1 or a scalar (R154, R155). -/
def rowOperand (b : Operand) (r : Nat) : Bool := !b.isTile || b.dims == (r, 1) || b.dims == (1, 1)

/-- VEXPD (R154): the exponentials go to dest0, their row sums to dest1. -/
def planVexpd (o : OpFields) (s : State) (f : Firing) (sl : Slot) (y : CoreCtx) (_ : Ctx) : Plan :=
  let (a, b, bad) := vBinary f sl o
  let (r, c) := a.dims
  let mode := fireMode y sl
  vPlan s f [a, b] (firstFault [bad, need (a.isTile && a.kindIn [0] && b.kindIn [0, 1, 2]) 1, need (rowOperand b r) 2])
    [([o.dest0.toNat], xfShape r c), ([o.dest1.toNat], xfShape r 1)] (ceilDiv r 2 + 4) (max r b.tileRows) fun _ =>
    let (xs, _) := floatVals s f a r c
    let (ms, f2) := floatVals s f b r c
    let (ys, f1) := gather (List.zipWith (fun x (m : Val) =>
      let (d, g) := addVal mode x m.neg
      let (e, h) := vexp mode d
      (e, g.or h)) xs ms)
    let (ss, f3) := gather ((rowsOf r c ys).map (sumRule mode))
    ([xfTile r c ys, xfTile r 1 ss], (f1.or f2).or f3)

/-- VRDIV (R155). -/
def planVrdiv (o : OpFields) (s : State) (f : Firing) (sl : Slot) (y : CoreCtx) (_ : Ctx) : Plan :=
  let (a, b, bad) := vBinary f sl o
  let (r, c) := a.dims
  let mode := fireMode y sl
  vPlan s f [a, b] (firstFault [bad, need (a.isTile && a.kindIn [0] && b.kindIn [0, 1, 2]) 1, need (rowOperand b r) 2])
    [(opDests o, xfShape r c)] (ceilDiv r 4) (max r b.tileRows) fun _ =>
    let (xs, _) := floatVals s f a r c
    let (ds, f2) := floatVals s f b r c
    let (v, fl) := gather (List.zipWith (vdiv mode) xs ds)
    ([xfTile r c v], fl.or f2)

/-- Whether element x with index i and position p ranks above another (R156). -/
def ranksAbove (x : Val × Int × Nat) (y : Val × Int × Nat) : Bool :=
  let tie := decide (x.2.1 < y.2.1) || (x.2.1 == y.2.1 && decide (x.2.2 < y.2.2))
  match Val.cmp x.1 y.1 with
  | some .gt => true
  | some .lt => false
  | some .eq => tie
  | none => if x.1.isNaN && y.1.isNaN then tie else y.1.isNaN

/-- Insert by rank. -/
def insertRank (x : Val × Int × Nat) : List (Val × Int × Nat) → List (Val × Int × Nat)
  | [] => [x]
  | y :: t => if ranksAbove x y then x :: y :: t else y :: insertRank x t

/-- TOPK (R156). -/
def planTopk (o : OpFields) (s : State) (f : Firing) (sl : Slot) (_ : CoreCtx) (_ : Ctx) : Plan :=
  let a := operand f sl [0, 1] o.srcA
  let b := operand f sl [0, 1, 5] o.srcB
  let (r, c) := a.dims
  let k := lit64 sl.lit0 53 48
  let n := r * c
  vPlan s f [a, b] (firstFault [need (a.isTile && a.kindIn [0] && b.ok && (o.srcB == 5 || b.isTile) && b.kindIn [0, 1, 2]) 1,
      need (!b.isTile || b.dims == (r, c)) 2, need (decide (k ≤ n)) 1])
    [([o.dest0.toNat], xfShape 1 k), ([o.dest1.toNat], intShape 1 k)] (ceilDiv n 256 + ceilDiv k 4 + 8) (ceilDiv n 64) fun _ =>
    let xs := (floatVals s f a r c).1
    let is : List Int := if b.isTile then (intVals s f b r c).map (·.1) else (List.range n).map fun (j : Nat) => ((litBits sl.lit1 23 0 + j : Nat) : Int)
    let ranked := ((xs.zip is).zipIdx.foldl (fun acc e => insertRank (e.1.1, e.1.2, e.2) acc) []).take k
    ([xfTile 1 k (ranked.map (·.1)), intTile 1 k (ranked.map (·.2.1))], noFlags)

/-- Move elements: out[i][j] is in[src i j], for every kind of tile (R157). -/
def moveTile (t : Tile) (r c : Nat) (src : Nat → Nat → Nat × Nat) : Tile :=
  let n := t.rows * t.cols
  let es := t.elems.toArray
  let is := t.ints.toArray
  let pos := (List.range r).flatMap fun i => (List.range c).map fun j => let q := src i j; q.1 * t.cols + q.2
  let pick (o : Nat) : List Elem := pos.map fun q => es.getD (o + q) ⟨false, 0, 0⟩
  { t with
    rows := r, cols := c,
    elems := if t.kind = 0 then pick 0 else if t.kind = 3 then pick 0 ++ pick n else [],
    ints := if t.kind = 1 ∨ t.kind = 2 then pos.map fun q => is.getD q 0 else [] }

/-- A layout operator on one tile (R157). -/
def vMove (f : Firing) (s : State) (ops : List Operand) (a : Operand) (fault : Option Nat) (r c occ g : Nat) (o : OpFields) (src : Nat → Nat → Nat × Nat) : Plan :=
  let d := a.desc.getD (Desc.ofWords 0 0)
  vPlan s f ops fault [(opDests o, keptShape d r c)] occ g fun _ =>
    match a with
    | .tile t => ([moveTile (s.tile f.core t) r c src], noFlags)
    | _ => ([], noFlags)

/-- TTRN (R157). -/
def planTtrn (o : OpFields) (s : State) (f : Firing) (sl : Slot) (_ : CoreCtx) (_ : Ctx) : Plan :=
  let (a, bad) := vUnary f sl o
  let (r, c) := a.dims
  vMove f s [a] a bad c r (ceilDiv c 4 + ceilDiv r 4) (max r c) o fun i j => (j, i)

/-- TBRD (R157). -/
def planTbrd (o : OpFields) (s : State) (f : Firing) (sl : Slot) (_ : CoreCtx) (_ : Ctx) : Plan :=
  let (a, bad) := vUnary f sl o
  let (r, c) := a.dims
  let rr := lit64 sl.lit0 29 24
  let cc := lit64 sl.lit0 35 30
  let ok := (r == 1 && c == 1) || (r == 1 && c == cc) || (c == 1 && r == rr)
  vMove f s [a] a (firstFault [bad, need ok 2]) rr cc (ceilDiv rr 4) (max r rr) o fun i j => (if r = 1 then 0 else i, if c = 1 then 0 else j)

/-- TSLC (R157). -/
def planTslc (o : OpFields) (s : State) (f : Firing) (sl : Slot) (_ : CoreCtx) (_ : Ctx) : Plan :=
  let (a, bad) := vUnary f sl o
  let (r, c) := a.dims
  let rr := lit64 sl.lit0 29 24
  let cc := lit64 sl.lit0 35 30
  let r0 := litBits sl.lit0 41 36
  let c0 := litBits sl.lit0 47 42
  vMove f s [a] a (firstFault [bad, need (decide (r0 + rr ≤ r ∧ c0 + cc ≤ c)) 2]) rr cc (ceilDiv rr 4) (max r rr) o fun i j => (r0 + i, c0 + j)

/-- Join two row-major lists along rows or columns. -/
def joinLists {α : Type} (cols : Bool) (ra ca rb cb : Nat) (a b : List α) : List α :=
  if cols then (List.zipWith (· ++ ·) (rowsOf ra ca a) (rowsOf rb cb b)).flatten else a ++ b

/-- TCAT (R157). Each source is port a or b (log 85). -/
def planTcat (o : OpFields) (s : State) (f : Firing) (sl : Slot) (_ : CoreCtx) (_ : Ctx) : Plan :=
  let a := operand f sl [0, 1] o.srcA
  let b := operand f sl [0, 1] o.srcB
  let (ra, ca) := a.dims
  let (rb, cb) := b.dims
  let byCols := decide (litBits sl.lit0 1 1 = 1)
  let da := a.desc.getD (Desc.ofWords 0 0)
  let db := b.desc.getD (Desc.ofWords 0 0)
  let same := a.isTile && b.isTile && da.kind == db.kind && (da.kind == 1 || da.kind == 2 || (da.e16 == db.e16 && da.p == db.p))
  let (r, c) := if byCols then (ra, ca + cb) else (ra + rb, ca)
  let fits := decide (r ≤ 64 ∧ c ≤ 64) && (if byCols then ra == rb else ca == cb)
  vPlan s f [a, b] (firstFault [need same 1, need fits 2]) [(opDests o, keptShape da r c)] (ceilDiv r 4) (max r (max ra rb)) fun _ =>
    match a, b with
    | .tile t, .tile u =>
      let x := s.tile f.core t
      let y := s.tile f.core u
      let na := ra * ca
      let nb := rb * cb
      let j (xs ys : List Elem) : List Elem := joinLists byCols ra ca rb cb xs ys
      ([{ x with
          rows := r, cols := c,
          elems := if x.kind = 3 then j (x.elems.take na) (y.elems.take nb) ++ j (x.elems.drop na) (y.elems.drop nb) else j x.elems y.elems,
          ints := joinLists byCols ra ca rb cb x.ints y.ints }], noFlags)
    | _, _ => ([], noFlags)

/-- The operands of TFILL and TIOTA: a trigger of any kind on port a, and a scalar x (R157). -/
def fillOperands (f : Firing) (sl : Slot) (o : OpFields) : Operand × Operand × Option Nat :=
  let a := operand f sl [0] o.srcA
  let b := operand f sl [1, 2, 3, 5, 6] o.srcB
  (a, b, need (a.ok && b.ok && !b.isTile) 1)

/-- TFILL (R157): as every layout operator it sets no flag, not even for a signalling NaN that it quiets. -/
def planTfill (o : OpFields) (s : State) (f : Firing) (sl : Slot) (_ : CoreCtx) (_ : Ctx) : Plan :=
  let (a, b, bad) := fillOperands f sl o
  let rr := lit64 sl.lit0 29 24
  let cc := lit64 sl.lit0 35 30
  let p := vPlan s f [b] bad [(opDests o, xfShape rr cc)] (ceilDiv rr 4) rr fun _ =>
    ([xfTile rr cc (List.replicate (rr * cc) b.float.1)], noFlags)
  if a.poison && bad.isNone then vPlan s f [a] bad [(opDests o, xfShape rr cc)] 1 1 fun _ => ([], noFlags) else p

/-- TIOTA (R157). -/
def planTiota (o : OpFields) (s : State) (f : Firing) (sl : Slot) (_ : CoreCtx) (_ : Ctx) : Plan :=
  let (a, b, bad) := fillOperands f sl o
  let rr := lit64 sl.lit0 29 24
  let cc := lit64 sl.lit0 35 30
  let p := vPlan s f [b] bad [(opDests o, intShape rr cc)] (ceilDiv rr 4) rr fun _ =>
    ([intTile rr cc ((List.range (rr * cc)).map fun (k : Nat) => wrap64 (b.int + (k : Int)))], noFlags)
  if a.poison && bad.isNone then vPlan s f [a] bad [(opDests o, intShape rr cc)] 1 1 fun _ => ([], noFlags) else p

/-- TPERM (R157): each index must be an integer within the extent. Each source is port a or b (log 85). -/
def planTperm (o : OpFields) (s : State) (f : Firing) (sl : Slot) (_ : CoreCtx) (_ : Ctx) : Plan :=
  let a := operand f sl [0, 1] o.srcA
  let b := operand f sl [0, 1] o.srcB
  let (ra, ca) := a.dims
  let (rb, cb) := b.dims
  let byCols := decide (litBits sl.lit0 1 1 = 1)
  let (r, c) := if byCols then (ra, cb) else (rb, ca)
  let shape := firstFault [need (a.isTile && b.isTile && b.kindIn [0, 1, 2]) 1, need (if byCols then rb == 1 else cb == 1) 2]
  let idx : List (Option Int) := match b with
    | .tile t => (s.tile f.core t).vals.map fun v => v.toIndex.map (·.1)
    | _ => []
  let lim : Int := if byCols then ca else ra
  let ok := idx.all fun i => match i with
    | some i => decide (0 ≤ i ∧ i < lim)
    | none => false
  let ix := (idx.map fun i => (i.getD 0).toNat).toArray
  let bad := if a.poison || b.poison then none else need ok 1
  vMove f s [a, b] a (firstFault [shape, bad]) r c (ceilDiv r 4) (max r (max ra rb)) o fun i j =>
    if byCols then (i, ix.getD j 0) else (ix.getD i 0, j)

/-- HAD (R158): each element by R153's sum rule, rounded once. -/
def planHad (o : OpFields) (s : State) (f : Firing) (sl : Slot) (y : CoreCtx) (_ : Ctx) : Plan :=
  let (a, bad) := vUnary f sl o
  let (r, c) := a.dims
  let mode := fireMode y sl
  vPlan s f [a] (firstFault [bad, need (a.kindIn [0]) 1, need (c == 32 || c == 64) 2]) [(opDests o, xfShape r c)] (2 * ceilDiv r 4) r fun _ =>
    let runs := chunks 32 (r * 2 + 1) (floatVals s f a r c).1
    let (v, fl) := gather (runs.flatMap fun xs => (List.range 32).map fun i =>
      sumRule mode (xs.zipIdx.map fun (x, j) => if popCount 6 (i &&& j) % 2 = 0 then x else x.neg))
    ([xfTile r c v], fl)

/-! ### Meanings: the issue of a firing of each operator -/

/-- VADD (R145). -/
def execVadd (f : OpFields) (s : State) : Host.Outcome State Fault Refusal := issueWith s f (planVadd f)

/-- VSUB (R145). -/
def execVsub (f : OpFields) (s : State) : Host.Outcome State Fault Refusal := issueWith s f (planVsub f)

/-- VMUL (R145). -/
def execVmul (f : OpFields) (s : State) : Host.Outcome State Fault Refusal := issueWith s f (planVmul f)

/-- VFMA (R145). -/
def execVfma (f : OpFields) (s : State) : Host.Outcome State Fault Refusal := issueWith s f (planVfma f)

/-- VFMS (R145). -/
def execVfms (f : OpFields) (s : State) : Host.Outcome State Fault Refusal := issueWith s f (planVfms f)

/-- VDIV (R142, R145). -/
def execVdiv (f : OpFields) (s : State) : Host.Outcome State Fault Refusal := issueWith s f (planVdiv f)

/-- VSQRT (R145). -/
def execVsqrt (f : OpFields) (s : State) : Host.Outcome State Fault Refusal := issueWith s f (planVsqrt f)

/-- VRCP (R145). -/
def execVrcp (f : OpFields) (s : State) : Host.Outcome State Fault Refusal := issueWith s f (planVrcp f)

/-- VRSQ (R145). -/
def execVrsq (f : OpFields) (s : State) : Host.Outcome State Fault Refusal := issueWith s f (planVrsq f)

/-- VEXP (R145). -/
def execVexp (f : OpFields) (s : State) : Host.Outcome State Fault Refusal := issueWith s f (planVexp f)

/-- VEXP2 (R145). -/
def execVexp2 (f : OpFields) (s : State) : Host.Outcome State Fault Refusal := issueWith s f (planVexp2 f)

/-- VLOG2 (R145). -/
def execVlog2 (f : OpFields) (s : State) : Host.Outcome State Fault Refusal := issueWith s f (planVlog2 f)

/-- VTANH (R145). -/
def execVtanh (f : OpFields) (s : State) : Host.Outcome State Fault Refusal := issueWith s f (planVtanh f)

/-- VSIGM (R145). -/
def execVsigm (f : OpFields) (s : State) : Host.Outcome State Fault Refusal := issueWith s f (planVsigm f)

/-- VMAX (R145). -/
def execVmax (f : OpFields) (s : State) : Host.Outcome State Fault Refusal := issueWith s f (planVmax f)

/-- VMIN (R145). -/
def execVmin (f : OpFields) (s : State) : Host.Outcome State Fault Refusal := issueWith s f (planVmin f)

/-- VABS (R145). -/
def execVabs (f : OpFields) (s : State) : Host.Outcome State Fault Refusal := issueWith s f (planVabs f)

/-- VNEG (R145). -/
def execVneg (f : OpFields) (s : State) : Host.Outcome State Fault Refusal := issueWith s f (planVneg f)

/-- VCPS (R139, R145). -/
def execVcps (f : OpFields) (s : State) : Host.Outcome State Fault Refusal := issueWith s f (planVcps f)

/-- VSCLX (R147). -/
def execVsclx (f : OpFields) (s : State) : Host.Outcome State Fault Refusal := issueWith s f (planVsclx f)

/-- VCVT (R148). -/
def execVcvt (f : OpFields) (s : State) : Host.Outcome State Fault Refusal := issueWith s f (planVcvt f)

/-- VCMP_EQ (R149). -/
def execVcmpEq (f : OpFields) (s : State) : Host.Outcome State Fault Refusal := issueWith s f (planVcmpEq f)

/-- VCMP_NE (R149). -/
def execVcmpNe (f : OpFields) (s : State) : Host.Outcome State Fault Refusal := issueWith s f (planVcmpNe f)

/-- VCMP_LT (R149). -/
def execVcmpLt (f : OpFields) (s : State) : Host.Outcome State Fault Refusal := issueWith s f (planVcmpLt f)

/-- VCMP_LE (R149). -/
def execVcmpLe (f : OpFields) (s : State) : Host.Outcome State Fault Refusal := issueWith s f (planVcmpLe f)

/-- VCMP_UN (R149). -/
def execVcmpUn (f : OpFields) (s : State) : Host.Outcome State Fault Refusal := issueWith s f (planVcmpUn f)

/-- VSELM (R150). -/
def execVselm (f : OpFields) (s : State) : Host.Outcome State Fault Refusal := issueWith s f (planVselm f)

/-- VIADD (R152). -/
def execViadd (f : OpFields) (s : State) : Host.Outcome State Fault Refusal := issueWith s f (planViadd f)

/-- VISUB (R152). -/
def execVisub (f : OpFields) (s : State) : Host.Outcome State Fault Refusal := issueWith s f (planVisub f)

/-- VIMUL (R152). -/
def execVimul (f : OpFields) (s : State) : Host.Outcome State Fault Refusal := issueWith s f (planVimul f)

/-- VIAND (R152). -/
def execViand (f : OpFields) (s : State) : Host.Outcome State Fault Refusal := issueWith s f (planViand f)

/-- VIOR (R152). -/
def execVior (f : OpFields) (s : State) : Host.Outcome State Fault Refusal := issueWith s f (planVior f)

/-- VIXOR (R152). -/
def execVixor (f : OpFields) (s : State) : Host.Outcome State Fault Refusal := issueWith s f (planVixor f)

/-- VISHL (R152). -/
def execVishl (f : OpFields) (s : State) : Host.Outcome State Fault Refusal := issueWith s f (planVishl f)

/-- VISHR (R152). -/
def execVishr (f : OpFields) (s : State) : Host.Outcome State Fault Refusal := issueWith s f (planVishr f)

/-- VIMIN (R152). -/
def execVimin (f : OpFields) (s : State) : Host.Outcome State Fault Refusal := issueWith s f (planVimin f)

/-- VIMAX (R152). -/
def execVimax (f : OpFields) (s : State) : Host.Outcome State Fault Refusal := issueWith s f (planVimax f)

/-- RSUMR (R153). -/
def execRsumr (f : OpFields) (s : State) : Host.Outcome State Fault Refusal := issueWith s f (planRsumr f)

/-- RMAXR (R153). -/
def execRmaxr (f : OpFields) (s : State) : Host.Outcome State Fault Refusal := issueWith s f (planRmaxr f)

/-- RMINR (R153). -/
def execRminr (f : OpFields) (s : State) : Host.Outcome State Fault Refusal := issueWith s f (planRminr f)

/-- RSUMC (R153). -/
def execRsumc (f : OpFields) (s : State) : Host.Outcome State Fault Refusal := issueWith s f (planRsumc f)

/-- RMAXC (R153). -/
def execRmaxc (f : OpFields) (s : State) : Host.Outcome State Fault Refusal := issueWith s f (planRmaxc f)

/-- VEXPD (R154). -/
def execVexpd (f : OpFields) (s : State) : Host.Outcome State Fault Refusal := issueWith s f (planVexpd f)

/-- VRDIV (R155). -/
def execVrdiv (f : OpFields) (s : State) : Host.Outcome State Fault Refusal := issueWith s f (planVrdiv f)

/-- TOPK (R156). -/
def execTopk (f : OpFields) (s : State) : Host.Outcome State Fault Refusal := issueWith s f (planTopk f)

/-- TTRN (R157). -/
def execTtrn (f : OpFields) (s : State) : Host.Outcome State Fault Refusal := issueWith s f (planTtrn f)

/-- TBRD (R157). -/
def execTbrd (f : OpFields) (s : State) : Host.Outcome State Fault Refusal := issueWith s f (planTbrd f)

/-- TSLC (R157). -/
def execTslc (f : OpFields) (s : State) : Host.Outcome State Fault Refusal := issueWith s f (planTslc f)

/-- TCAT (R157). -/
def execTcat (f : OpFields) (s : State) : Host.Outcome State Fault Refusal := issueWith s f (planTcat f)

/-- TFILL (R157). -/
def execTfill (f : OpFields) (s : State) : Host.Outcome State Fault Refusal := issueWith s f (planTfill f)

/-- TIOTA (R157). -/
def execTiota (f : OpFields) (s : State) : Host.Outcome State Fault Refusal := issueWith s f (planTiota f)

/-- TPERM (R157). -/
def execTperm (f : OpFields) (s : State) : Host.Outcome State Fault Refusal := issueWith s f (planTperm f)

/-- HAD (R158). -/
def execHad (f : OpFields) (s : State) : Host.Outcome State Fault Refusal := issueWith s f (planHad f)

end Sys2Proof.Machine
end

