-- ==== Sys2Proof/Machine/Memory.lean ====
section
/-! DEFINITION. The memory operators of S (R127 to R135, R242 to R251), the asynchronous operators (R268 to R279), the Chest
and ticket operators (R312, R348) and the barriers (R189, R190): what each does when it issues. -/

namespace Sys2Proof.Machine

/-- The record of a handle of a firing, or the fault its translation raises (R204). -/
def withObj (s : State) (f : Firing) (h kind perm : Nat) (k : ObjRec → Plan) : Plan :=
  match s.translate f.ctx h kind perm with
  | .fault c => Plan.faults c
  | .halt c g => { halt := some (c, h, g, 0) }
  | .ok r => k r

/-- The handle of an access word. -/
def handleOf (w : Word) : Nat := (w.extractLsb' 0 24).toNat

/-- The base that a data-scalar trigger brings (R129). -/
def triggerBase (t : Option Token) : List Nat :=
  match t with
  | some t => if t.kind = 1 then [(t.w0.extractLsb' 0 32).toNat, (t.w0.extractLsb' 32 32).toNat, 0, 0, 0, 0] else [0, 0, 0, 0, 0, 0]
  | none => [0, 0, 0, 0, 0, 0]

/-- A firing's element coordinate (R129). -/
def firingCoord (f : Firing) (x : Ctx) (lit0 : Word) (rowUnit colUnit : Nat) (base : List Nat) : Option (List Nat) :=
  termCoord (tagField x.tagfmt f.tag) lit0 rowUnit colUnit base

/-- The rounding mode code of a firing for an object (R38, R39). -/
def objMode (y : CoreCtx) (sl : Slot) (r : ObjRec) : Nat := (modeFor (modeCode y sl.rm) r.rm).code

/-- The rows 0 to n - 1. -/
def plainRows (n : Nat) : List Int := (List.range n).map Int.ofNat

/-- A memory access of a firing. -/
def mkAccess (y : CoreCtx) (sl : Slot) (h : Nat) (r : ObjRec) (x : List Nat) (rows : List Int) (cols : Nat) (d d1 : Word) : Access :=
  { handle := h, obj := r, x := x, rows := rows, cols := cols, pad := sl.edge == 0, mode := objMode y sl r, lit1 := sl.lit1,
    desc := d, desc1 := d1 }

/-- A plan that holds a Chest entry of a class and kind for a record, on a generator or not; on a proxy record it needs a
Bench entry too, and holds its generator only in the ck of issue (R135, R174, R339, R352). -/
def chestPlan (s : State) (cls kind h : Nat) (r : ObjRec) (cost rows : Nat) (gen inOrder : Bool) (arg : Word)
    (eff : State → Nat → BitVec 32 → List Out) (job : Job) : Plan :=
  { cost := cost, gen := gen, hold := r.owner == s.devId, bench := r.owner != s.devId, inOrder := inOrder,
    chest := some { cls := cls, kind := kind, handle := h, gen := r.gen, rows := rows, arg := arg },
    effect := fun s col tag => { st := s, outs := eff s col tag, job := job } }

/-- A poison-scalar to every destination, with no memory access (R190, R268). Its payload is 0 (log 64). -/
def poisonScalars (o : OpFields) : Plan :=
  { effect := fun s col tag => { st := s, outs := [bothOut o (.scalar 0 true) col tag] } }

/-- Whether both tokens a firing may hold are free of poison. -/
def anyPoison (f : Firing) : Bool := (f.a.toList ++ f.b.toList).any Token.isPoison

/-! ### Tiles -/

/-- The load mould (R130, R131, R135): `poisoned` sends a poison-tile, and a tile wholly outside is padded. -/
def loadPlan (s : State) (o : OpFields) (sl : Slot) (kind : Nat) (poisoned : Bool) (t : Access) : Plan :=
  let n := t.rows.length
  let fmt := t.obj.fmt
  let desc (p : Bool) : Word := (loadedTile fmt n t.cols []).desc p
  let still (v : OutVal) : Plan :=
    { cost := n, occ := n, gen := true, inOrder := true, effect := fun s col tag => { st := s, outs := [bothOut o v col tag] } }
  if t.obj.rank = 1 ∧ n ≠ 1 then Plan.faults 1
  else if poisoned then still (.newTile (desc true) [] true)
  else if sl.edge = 1 ∧ t.someOut = true then Plan.faults 4
  else if t.allOut then still (.newTile (desc false) (loadedTile fmt n t.cols (List.replicate (n * t.cols) t.padElem)).bytes false)
  else chestPlan s 0 kind t.handle t.obj n n true true 0 (fun _ col tag => [bothOut o (.newTile (desc false) [] false) col tag]) (.load t)

/-- TLD (R131). -/
def planTld (o : OpFields) (s : State) (f : Firing) (sl : Slot) (y : CoreCtx) (x : Ctx) : Plan :=
  let a := operand f sl [0, 1] o.srcA
  if o.srcB ≠ 2 ∨ a.ok = false then Plan.faults 1
  else
    let rows := lit64 sl.lit0 29 24
    let cols := lit64 sl.lit0 35 30
    withObj s f (handleOf sl.lit0) 0 0 fun r =>
      match firingCoord f x sl.lit0 rows cols (triggerBase (f.tok o.srcA)) with
      | none => Plan.faults 1
      | some c => loadPlan s o sl 0 a.poison (mkAccess y sl (handleOf sl.lit0) r c (plainRows rows) cols 0 0)

/-- A plan that sets further flags when its firing issues. -/
def Plan.withFlags (fl : Flags) (p : Plan) : Plan :=
  { p with effect := fun s col tag => let e := p.effect s col tag; { e with flags := e.flags.or fl } }

/-- The index tile of a gather or scatter (R242): dense or integer form, one column, every element an integer, read by R151 with
its flags. -/
def indexRows (s : State) (f : Firing) (t : Token) : Nat ⊕ (List Int × Flags) :=
  let d := t.desc
  if t.isTile = false ∨ d.kind ≠ 0 then .inl 1
  else if d.cols ≠ 1 then .inl 2
  else if t.isPoison then .inr (List.replicate d.rows 0, noFlags)
  else if s.tileEcc f.core t then .inl 17
  else
    let is := (s.tile f.core t).vals.map Val.toIndex
    if is.all Option.isSome then .inr ((is.filterMap id).map (·.1), unionFlags ((is.filterMap id).map (·.2))) else .inl 1

/-- TLDG (R242). -/
def planTldg (o : OpFields) (s : State) (f : Firing) (sl : Slot) (y : CoreCtx) (x : Ctx) : Plan :=
  match (if (o.srcA = 0 ∨ o.srcA = 1) ∧ o.srcB = 2 then f.tok o.srcA else none) with
  | none => Plan.faults 1
  | some t =>
    match indexRows s f t with
    | .inl k => Plan.faults k
    | .inr (rows, fl) =>
      let cols := lit64 sl.lit0 35 30
      withObj s f (handleOf sl.lit0) 0 0 fun r =>
        match firingCoord f x sl.lit0 (lit64 sl.lit0 29 24) cols (triggerBase none) with
        | none => Plan.faults 1
        | some c => (loadPlan s o sl 4 t.isPoison (mkAccess y sl (handleOf sl.lit0) r c rows cols 0 0)).withFlags fl

/-- The store mould (R130, R132, R200): the completion's payload is the declared bytes. -/
def storePlan (s : State) (f : Firing) (o : OpFields) (sl : Slot) (kind : Nat) (d : Token) (poisoned : Bool) (t : Access) : Plan :=
  let n := t.rows.length
  let x1 := dim t.x 1
  let g := t.obj.group
  let done := BitVec.ofNat 64 (declaredBytes t.obj.fmt n t.cols)
  if t.obj.rank = 1 ∧ n ≠ 1 then Plan.faults 1
  else if x1 % g ≠ 0 ∨ t.cols % g ≠ 0 ∨ (t.obj.had = true ∧ (x1 % 32 ≠ 0 ∨ t.cols % 32 ≠ 0)) then Plan.faults 1
  else if poisoned then Plan.faults 5
  else if s.tileEcc f.core d then Plan.faults 17
  else if sl.edge = 1 ∧ t.someOut = true then Plan.faults 4
  else
    let outs (col : Nat) (tag : BitVec 32) : List Out := [bothOut o (.scalar done false) col tag]
    if t.allOut then
      { cost := n, occ := n, gen := true, inOrder := true, effect := fun s col tag => { st := s, outs := outs col tag } }
    else chestPlan s 1 kind t.handle t.obj n n true true 0 (fun _ => outs) (.store t)

/-- TST (R132). -/
def planTst (o : OpFields) (s : State) (f : Firing) (sl : Slot) (y : CoreCtx) (x : Ctx) : Plan :=
  match (if (o.srcA = 0 ∨ o.srcA = 1) ∧ o.srcB = 2 then f.tok o.srcA else none) with
  | none => Plan.faults 1
  | some d =>
    if d.isTile = false then Plan.faults 1
    else
      withObj s f (handleOf sl.lit0) 0 1 fun r =>
        match firingCoord f x sl.lit0 (lit64 sl.lit0 29 24) (lit64 sl.lit0 35 30) (triggerBase none) with
        | none => Plan.faults 1
        | some c =>
          storePlan s f o sl 1 d d.isPoison (mkAccess y sl (handleOf sl.lit0) r c (plainRows d.desc.rows) d.desc.cols d.w0 d.w1)

/-- TSTS (R243). -/
def planTsts (o : OpFields) (s : State) (f : Firing) (sl : Slot) (y : CoreCtx) (x : Ctx) : Plan :=
  match (if o.srcA = 0 ∧ o.srcB = 1 then f.a else none), f.b with
  | some d, some t =>
    if d.isTile = false then Plan.faults 1
    else match indexRows s f t with
      | .inl k => Plan.faults k
      | .inr (rows, fl) =>
        if rows.length ≠ d.desc.rows then Plan.faults 2
        else withObj s f (handleOf sl.lit0) 0 1 fun r =>
          match firingCoord f x sl.lit0 (lit64 sl.lit0 29 24) (lit64 sl.lit0 35 30) (triggerBase none) with
          | none => Plan.faults 1
          | some c =>
            (storePlan s f o sl 5 d (d.isPoison || t.isPoison) (mkAccess y sl (handleOf sl.lit0) r c rows d.desc.cols d.w0 d.w1)).withFlags fl
  | _, _ => Plan.faults 1

/-! ### Scalars and atomics -/

/-- SLD (R133). The payload of a poison-scalar that it sends is 0 (log 64). -/
def planSld (o : OpFields) (s : State) (f : Firing) (sl : Slot) (y : CoreCtx) (x : Ctx) : Plan :=
  let a := operand f sl [0, 1] o.srcA
  if o.srcB ≠ 2 ∨ a.ok = false then Plan.faults 1
  else
    withObj s f (handleOf sl.lit0) 0 0 fun r =>
      match firingCoord f x sl.lit0 (lit64 sl.lit0 29 24) (lit64 sl.lit0 35 30) (triggerBase (f.tok o.srcA)) with
      | none => Plan.faults 1
      | some c =>
        let t := mkAccess y sl (handleOf sl.lit0) r c [0] 1 0 0
        let still (w : Word) (p : Bool) : Plan :=
          { gen := true, inOrder := true, effect := fun s col tag => { st := s, outs := [bothOut o (.scalar w p) col tag] } }
        if a.poison then still 0 true
        else if t.allOut then (if sl.edge = 1 then Plan.faults 4 else still sl.lit1 false)
        else chestPlan s 0 2 t.handle r 1 1 true true 0 (fun _ col tag => [bothOut o (.scalar 0 false) col tag]) (.scalarLoad t)

/-- A scalar value operand as 64 bits, whether it is read as an unsigned integer, and whether it is poison (R134): a tile is
refused. -/
def valueOperand (v : Operand) : Option (Word × Bool × Bool) :=
  match v with
  | .scalar t => some (t.w0, false, t.isPoison)
  | .lit w => some (w, false, false)
  | .zero => some (0, false, false)
  | .iter tag => some (tag.zeroExtend 64, true, false)
  | _ => none

/-- SST (R134). -/
def planSst (o : OpFields) (s : State) (f : Firing) (sl : Slot) (y : CoreCtx) (x : Ctx) : Plan :=
  match valueOperand (operand f sl [0, 1, 3, 5, 6] o.srcA) with
  | none => Plan.faults 1
  | some (v, uns, poisoned) =>
    if o.srcB ≠ 2 then Plan.faults 1
    else
      withObj s f (handleOf sl.lit0) 0 1 fun r =>
        match firingCoord f x sl.lit0 (lit64 sl.lit0 29 24) (lit64 sl.lit0 35 30) (triggerBase none) with
        | none => Plan.faults 1
        | some c =>
          let t := mkAccess y sl (handleOf sl.lit0) r c [0] 1 0 0
          let outs (col : Nat) (tag : BitVec 32) : List Out := [bothOut o (.scalar (BitVec.ofNat 64 (elemBytes r.fmt)) false) col tag]
          if poisoned then Plan.faults 5
          else if t.allOut then
            (if sl.edge = 1 then Plan.faults 4
             else { gen := true, inOrder := true, effect := fun s col tag => { st := s, outs := outs col tag } })
          else chestPlan s 1 3 t.handle r 1 1 true true v (fun _ => outs) (.scalarStore t v uns)

/-- The formats that atomics accept (R244). -/
def atomFormat (fmt : Nat) : Bool := [0, 1, 6, 7, 8, 9].contains fmt

/-- The atomics (R244, R245): `op` is 0 ATAD, 1 ATMN, 2 ATMX, 3 ATXC, 4 ATCS. On a proxy they send a Bench reference (R346). -/
def atomPlan (op : Nat) (o : OpFields) (s : State) (f : Firing) (sl : Slot) (y : CoreCtx) (x : Ctx) : Plan :=
  match valueOperand (operand f sl (if op = 4 then [0, 1, 5, 6] else [0, 1, 3, 5, 6]) o.srcA) with
  | none => Plan.faults 1
  | some (v, uns, _) =>
    if ¬(o.srcB = 0 ∨ o.srcB = 1 ∨ o.srcB = 5) ∨ litBits sl.lit0 35 27 ≠ 0 ∨ 6 < litBits sl.lit0 26 24 then Plan.faults 1
    else
      withObj s f (handleOf sl.lit0) 0 2 fun r =>
        if r.st = 4 then Plan.faults 3
        else if atomFormat r.fmt = false then Plan.faults 1
        else if anyPoison f then Plan.faults 5
        else match firingCoord f x sl.lit0 1 1 (triggerBase (f.tok o.srcB)) with
          | none => Plan.faults 1
          | some c =>
            let t := mkAccess y sl (handleOf sl.lit0) r c [0] 1 0 0
            if t.someOut then Plan.faults 4
            else chestPlan s 2 6 t.handle r 1 1 true true v
              (fun _ col tag => [scalarAt (o.dest0.toNat) col tag, scalarAt (o.dest1.toNat) col tag])
              (.atomic t op (litBits sl.lit0 26 24) v uns sl.lit1)
where
  scalarAt (c col : Nat) (tag : BitVec 32) : Out := { codes := [c], val := .scalar 0 false, col := col, tag := tag }

/-- ATAD (R245). -/
def planAtad := atomPlan 0
/-- ATMN (R245). -/
def planAtmn := atomPlan 1
/-- ATMX (R245). -/
def planAtmx := atomPlan 2
/-- ATXC (R245). -/
def planAtxc := atomPlan 3
/-- ATCS (R245). -/
def planAtcs := atomPlan 4

/-! ### Fences and rings -/

/-- FNC.s (R246). -/
def fncPlan (scope : Nat) (o : OpFields) (_ : State) (f : Firing) (_ : Slot) (_ : CoreCtx) (_ : Ctx) : Plan :=
  match (if (o.srcA = 0 ∨ o.srcA = 1) ∧ o.srcB = 5 then f.tok o.srcA else none) with
  | none => Plan.faults 1
  | some t =>
    { inOrder := true, chest := some { cls := 0, kind := 9 },
      effect := fun s col tag => { st := s, outs := [bothOut o (.forward t) col tag], job := .fence scope } }

/-- FNC.engine (R246). -/
def planFncEngine := fncPlan 0
/-- FNC.core (R246). -/
def planFncCore := fncPlan 1
/-- FNC.quad (R246). -/
def planFncQuad := fncPlan 2
/-- FNC.cluster (R246). -/
def planFncCluster := fncPlan 3
/-- FNC.die (R246). -/
def planFncDie := fncPlan 4
/-- FNC.device (R246). -/
def planFncDevice := fncPlan 5
/-- FNC.system (R246). -/
def planFncSystem := fncPlan 6

/-- RPUSH (R247, R248, R251). -/
def planRpush (o : OpFields) (s : State) (f : Firing) (sl : Slot) (y : CoreCtx) (_ : Ctx) : Plan :=
  match (if (o.srcA = 0 ∨ o.srcA = 1) ∧ o.srcB = 2 then f.tok o.srcA else none) with
  | none => Plan.faults 1
  | some t =>
    if t.isTile = false ∨ litBits sl.lit0 63 24 ≠ 0 then Plan.faults 1
    else withObj s f (handleOf sl.lit0) 1 1 fun r =>
      let d := t.desc
      if 8 * dim r.shape 1 < d.rows * d.cols * fmtBits r.fmt then Plan.faults 2
      else if t.isPoison then Plan.faults 5
      else if s.tileEcc f.core t then Plan.faults 17
      else
        { chestPlan s 2 7 (handleOf sl.lit0) r d.rows d.rows true true 0
            (fun _ col tag => [bothOut o (.scalar 0 false) col tag]) (.push (handleOf sl.lit0) r t.w0 t.w1 0 (objMode y sl r)) with
          occ := d.rows }

/-- The tile elements that a ring slot can hold (R249). -/
def ringElems (r : ObjRec) : Nat := min 4096 (8 * dim r.shape 1 / fmtBits r.fmt)

/-- RPOP (R247, R249, R251). -/
def planRpop (o : OpFields) (s : State) (f : Firing) (sl : Slot) (_ : CoreCtx) (_ : Ctx) : Plan :=
  let a := operand f sl [0, 1] o.srcA
  if o.srcB ≠ 2 ∨ a.ok = false ∨ litBits sl.lit0 63 24 ≠ 0 then Plan.faults 1
  else withObj s f (handleOf sl.lit0) 1 0 fun r =>
    let (k, e16, p) := fmtPlane r.fmt
    let run := tileBytes k 1 (ringElems r) e16 p
    if a.poison then
      { gen := true, inOrder := true, extra := run,
        effect := fun s col tag =>
          { st := s, outs := [bothOut o (.tile ((loadedTile r.fmt 1 1 []).desc true) 0 true) col tag] } }
    else
      { chestPlan s 2 8 (handleOf sl.lit0) r 1 1 true true 0 (fun _ col tag => [bothOut o .eos col tag]) (.pop (handleOf sl.lit0) r) with
        extra := run }

/-! ### Copy stages, counters, shadows -/

/-- STADV (R269). -/
def planStadv (o : OpFields) (_ : State) (f : Firing) (_ : Slot) (y : CoreCtx) (_ : Ctx) : Plan :=
  match (if (o.srcA = 0 ∨ o.srcA = 1) ∧ o.srcB = 5 then f.tok o.srcA else none) with
  | none => Plan.faults 1
  | some t =>
    if t.isPoison then poisonScalars o
    else if 65535 ≤ y.rstg then Plan.faults 1
    else
      { effect := fun s col tag =>
          { st := s.modCctx f.core f.ctx fun z => { z with rstg := z.rstg + 1 },
            outs := [bothOut o (.scalar (BitVec.ofNat 64 (y.rstg + 1)) false) col tag] } }

/-- A counter operand word (R270): the record, the row and column, or the fault. `wait` is CNWT. -/
def withCounter (s : State) (f : Firing) (sl : Slot) (x : Ctx) (wait : Bool) (perm : Nat) (k : ObjRec → Nat → Nat → Plan) : Plan :=
  let w := sl.lit0
  if litBits w 63 57 ≠ 0 then Plan.faults 1
  else withObj s f (handleOf w) 3 perm fun r =>
    let row := litBits w 39 24 + (if w.getLsbD 46 then tagField x.tagfmt f.tag (litBits w 48 47) else 0)
    let col := litBits w 45 40
    if dim r.shape 2 ≤ row ∨ (wait = false ∧ (dim r.shape 1 ≤ col ∨ litBits w 56 49 ≠ 0)) then Plan.faults 1
    else k r row col

/-- CNADD (R271). -/
def planCnadd (o : OpFields) (s : State) (f : Firing) (sl : Slot) (_ : CoreCtx) (x : Ctx) : Plan :=
  match valueOperand (operand f sl [0, 1, 3, 5, 6] o.srcA) with
  | none => Plan.faults 1
  | some (v, _, _) =>
    if ¬(o.srcB = 0 ∨ o.srcB = 1 ∨ o.srcB = 5) then Plan.faults 1
    else withCounter s f sl x false 2 fun r row col =>
      if anyPoison f then Plan.faults 5
      else chestPlan s 2 10 (handleOf sl.lit0) r 1 1 true true v (fun _ c tag => [bothOut o (.scalar 0 false) c tag])
        (.counterAdd (handleOf sl.lit0) r (row * dim r.shape 1 + col) v.toNat)

/-- CNWT (R272): d0 gets the trigger, d1 the least of the named counters. -/
def planCnwt (o : OpFields) (s : State) (f : Firing) (sl : Slot) (_ : CoreCtx) (x : Ctx) : Plan :=
  match valueOperand (operand f sl [0, 1, 5, 6] o.srcA), (if o.srcB = 0 ∨ o.srcB = 1 then f.tok o.srcB else none) with
  | some (v, _, pv), some t =>
    withCounter s f sl x true 0 fun r row _ =>
      let p := dim r.shape 1
      if sl.lit1.toNat / 2^p ≠ 0 then Plan.faults 1
      else if pv ∨ t.isPoison then poisonScalars o
      else
        let cols := (List.range p).filter fun j => sl.lit1 == 0 || sl.lit1.getLsbD j
        chestPlan s 0 11 (handleOf sl.lit0) r 1 1 false false v
          (fun _ c tag => [{ codes := [o.dest0.toNat], val := .forward t, col := c, tag := tag },
                           { codes := [o.dest1.toNat], val := .scalar 0 false, col := c, tag := tag }])
          (.counterWait (handleOf sl.lit0) r (cols.map fun j => row * p + j) (v.toNat + litBits sl.lit0 56 49))
  | _, _ => Plan.faults 1

/-- CNRD (R273). -/
def planCnrd (o : OpFields) (s : State) (f : Firing) (sl : Slot) (_ : CoreCtx) (x : Ctx) : Plan :=
  let a := operand f sl [0, 1] o.srcA
  if o.srcB ≠ 5 ∨ a.ok = false then Plan.faults 1
  else withCounter s f sl x false 0 fun r row col =>
    if a.poison then poisonScalars o
    else chestPlan s 0 12 (handleOf sl.lit0) r 1 1 true true 0 (fun _ c tag => [bothOut o (.scalar 0 false) c tag])
      (.counterRead (handleOf sl.lit0) r (row * dim r.shape 1 + col))

/-- A record in its reset state (R199). -/
def ObjRec.reset : ObjRec :=
  { stride := [0, 0, 0, 0, 0, 0], shape := [0, 0, 0, 0, 0, 0], shadow := 0, base := 0, owner := 0, ctx := 0, igen := 0, gen := 0,
    kind := 0, gsz := 0, had := false, sat := false, rm := 0, perm := 0, layout := 0, rank := 0, fmt := 0, ppend := false, st := 0 }

/-- The record as it will stand after the commands queued for it (R238): ORINV, ORMOV, PUBL, and a queued ORSET or SHOP; ORRES leaves
the record. -/
def HubOp.project (q : HubOp) (r : ObjRec) : ObjRec :=
  match q with
  | .orset n => if r.st = 0 then { n with gen := (r.gen + 1) % 65536, igen := (r.gen + 1) % 65536 }
                else { r with perm := n.perm, ppend := n.ppend, rm := n.rm, sat := n.sat }
  | .orinv => { ObjRec.reset with gen := (r.gen + 1) % 65536 }
  | .ormov dst => { r with base := dst, gen := (r.gen + 1) % 65536, st := 1, shadow := dst }
  | .shop => { r with st := 4 }
  | .orres _ _ _ _ => r
  | .publ => { r with base := r.shadow, shadow := r.base, gen := (r.gen + 1) % 65536, st := 1 }

/-- The projected record of a handle (R238). -/
def State.projected (s : State) (h : Nat) : ObjRec :=
  ((s.msys.hub.filter fun q => q.handle == h && !q.performed).map (·.op)).foldl (fun r q => q.project r)
    (match s.msys.relocs.find? fun (q : Reloc) => q.handle == h && !q.flipped with
     | some q => HubOp.project (.ormov q.newBase) ((s.obj? h).getD ObjRec.reset)
     | none => (s.obj? h).getD ObjRec.reset)

/-- Whether two runs of bytes overlap. -/
def overlap (a n b m : Nat) : Bool := decide (a < b + m ∧ b < a + n)

/-- A plan for an object whose record is checked as it will stand after the commands queued for it (R274). -/
def withProjected (s : State) (f : Firing) (h kind perm : Nat) (k : ObjRec → Plan) : Plan :=
  match s.translateTo h ((s.obj? h).map fun _ => s.projected h) f.ctx kind perm with
  | .fault c => Plan.faults c
  | .halt c g => { halt := some (c, h, g, 0) }
  | .ok r => k r

/-- SHOP and PUBL (R274): they join the object's command queue when they issue. -/
def hubPlan (publ : Bool) (o : OpFields) (s : State) (f : Firing) (sl : Slot) (_ : CoreCtx) (_ : Ctx) : Plan :=
  match (if (o.srcA = 0 ∨ o.srcA = 1) ∧ o.srcB = 5 then f.tok o.srcA else none) with
  | none => Plan.faults 1
  | some t =>
    let h := handleOf sl.lit0
    if litBits sl.lit0 63 24 ≠ 0 then Plan.faults 1
    else withProjected s f h 0 1 fun p =>
      let n := p.footprint
      if t.isPoison then Plan.faults 5
      else if p.owner ≠ s.devId ∨ (if publ then p.st ≠ 4 else (p.st ≠ 1 ∨ p.shadow = 0 ∨ overlap p.shadow n p.base n = true)) then Plan.faults 3
      else
        { inOrder := true, chest := some { cls := 2, kind := if publ then 20 else 19, handle := h, gen := ((s.obj? h).map (·.gen)).getD 0 },
          effect := fun s col tag =>
            { st := s.modMsys fun m => { m with hub := m.hub ++ [{
                handle := h, op := if publ then .publ else .shop, counter := 0, ctx := f.ctx, fid := some f.id, performed := false,
                oldGen := 0, readers := [] }] },
              outs := [{ codes := [o.dest0.toNat], val := .scalar 0 false, col := col, tag := tag },
                       { codes := [o.dest1.toNat], val := .scalar 0 false, col := col, tag := tag }],
              job := .hub h publ } }

/-- SHOP (R274). -/
def planShop := hubPlan false
/-- PUBL (R274). -/
def planPubl := hubPlan true

/-! ### Near memory, multicast, completion records, launches -/

/-- Whether an element lies in HBM, if its place is known at issue (R266). -/
def State.inHbm (s : State) (t : Access) : Bool :=
  match t.cell 0 0 with
  | none => false
  | some x => match s.site t.obj true x with
    | .at ps => ps.all fun p => match bankOf p.1 with
      | some (.hbm _) => true
      | _ => false
    | _ => true

/-- NMIV (R265, R266, R275): subgraphs 0 to 4 are the atomics; the others are Config's. A shadowed
object raises object access whichever the subgraph (R210; log 94). -/
def planNmiv (o : OpFields) (s : State) (f : Firing) (sl : Slot) (y : CoreCtx) (x : Ctx) : Plan :=
  let sub := litBits sl.lit0 35 30
  match valueOperand (operand f sl [0, 1, 3, 5, 6] o.srcA), valueOperand (operand f sl [0, 1, 3, 5, 6] o.srcB) with
  | some (v, vu, _), some (w, wu, _) =>
    if litBits sl.lit0 29 24 ≠ 0 ∨ (5 ≤ sub ∧ sub ≤ 15) then Plan.faults 1
    else withObj s f (handleOf sl.lit0) 0 2 fun r =>
      if r.st = 4 then Plan.faults 3
      else if sub < 5 ∧ atomFormat r.fmt = false then Plan.faults 1
      else if anyPoison f then Plan.faults 5
      else match firingCoord f x sl.lit0 1 1 (triggerBase none) with
        | none => Plan.faults 1
        | some c =>
          let t := mkAccess y sl (handleOf sl.lit0) r c [0] 1 0 0
          let fit (w : Word) (u : Bool) : Word := if u ∧ sub < 5 ∧ fmtIsFloat r.fmt = true then encodeFp64 (Val.ofInt w.toNat) else w
          let at_ (c : Nat) (col : Nat) (tag : BitVec 32) : Out := { codes := [c], val := .scalar 0 false, col := col, tag := tag }
          let outs (col : Nat) (tag : BitVec 32) : List Out :=
            if r.owner = s.devId ∧ 16 ≤ sub ∧ Config.nmColumns sub ≠ 0 then
              [bothOut o (.newTile ((xfShape 1 (min 64 (Config.nmColumns sub))).desc false) [] false) col tag]
            else [at_ o.dest0.toNat col tag, at_ o.dest1.toNat col tag]
          if t.someOut then Plan.faults 4
          else if r.owner = s.devId ∧ s.inHbm t = false then Plan.faults 3
          else
            { chestPlan s 2 15 t.handle r 1 1 true true v (fun _ => outs) (.invoke t sub (fit v vu) (fit w wu)) with hold := false }
  | _, _ => Plan.faults 1

/-- MCST (R276). -/
def planMcst (o : OpFields) (s : State) (f : Firing) (sl : Slot) (_ : CoreCtx) (x : Ctx) : Plan :=
  let e := sl.lit1
  let g : Option (Nat × Bool) := match operand f sl [0, 1, 3] o.srcB with
    | .scalar t => some ((t.w0.extractLsb' 0 8).toNat, t.isPoison)
    | .lit w => some ((w.extractLsb' 13 8).toNat, false)
    | _ => none
  match (if o.srcA = 0 ∨ o.srcA = 1 then f.tok o.srcA else none), g with
  | some t, some (grp, gp) =>
    if sl.lit0 ≠ 0 ∨ entryOk e = false ∨ e.getLsbD 62 = false ∨ e.getLsbD 21 = false ∨ 2 ≤ (e.extractLsb' 22 2).toNat then Plan.faults 1
    else if gp then poisonScalars o
    else match x.groups.find? fun q => q.1 == grp with
      | none => Plan.faults 12
      | some (_, m) =>
        if s.foreignGroup f.ctx grp then
          { effect := fun s _ _ => { st := (s.orphans f.ctx 1).raise f.ctx f.sect 13 } }
        else
          let own := m.getLsbD f.core && x.excl.getLsbD grp
          let n := (maskCores m).length - own.toNat
          let e' := BitVec.ofNat 64 (e.toNat - (e.extractLsb' 13 8).toNat * 8192 + grp * 8192)
          { inOrder := true, effect := fun s col tag =>
              { st := s, outs := [{ codes := [], val := .multicast e' t, col := col, tag := tag },
                                  bothOut o (.scalar (BitVec.ofNat 64 n) false) col tag] } }
  | _, _ => Plan.faults 1

/-- Whether a record is a UINT8, rank-1, row-major tensor of this device (R277 to R279, R312). -/
def ObjRec.isBytes (r : ObjRec) (dev : Nat) : Bool := r.fmt == 9 && r.rank == 1 && r.layout == 0 && r.owner == dev

/-- The byte offset of CMPR, LNCH and CHSV (R277, R312): lit1, plus the payload of a data-scalar trigger. -/
def byteOffset (sl : Slot) (t : Token) : Nat := sl.lit1.toNat + if t.kind = 1 then t.w0.toNat else 0

/-- n bytes of a byte object from an offset. -/
def byteAccess (y : CoreCtx) (sl : Slot) (h : Nat) (r : ObjRec) (off n : Nat) : Access :=
  { mkAccess y sl h r [off, 0, 0, 0, 0, 0] [0] n 0 0 with lit1 := 0 }

/-- CMPR (R277). -/
def planCmpr (o : OpFields) (s : State) (f : Firing) (sl : Slot) (y : CoreCtx) (_ : Ctx) : Plan :=
  match (if (o.srcA = 0 ∨ o.srcA = 1) ∧ o.srcB = 5 then f.tok o.srcA else none) with
  | none => Plan.faults 1
  | some t =>
    if litBits sl.lit0 63 27 ≠ 0 then Plan.faults 1
    else withObj s f (handleOf sl.lit0) 0 0 fun r =>
      let off := byteOffset sl t
      if r.isBytes r.owner = false then Plan.faults 1
      else if t.isPoison then poisonScalars o
      else if off % 64 ≠ 0 ∨ dim r.shape 1 < off + 64 then Plan.faults 1
      else chestPlan s 0 21 (handleOf sl.lit0) r 1 1 true true 0
        (fun _ c tag => [{ codes := [o.dest0.toNat], val := .scalar 0 false, col := c, tag := tag },
                         { codes := [o.dest1.toNat], val := .scalar 0 false, col := c, tag := tag }])
        (.completion (byteAccess y sl (handleOf sl.lit0) r off 64) (litBits sl.lit0 26 24))

/-- The places of the four runs of 64 bytes of a launch record in one piece. -/
def runPlaces (a : Nat) : List Nat := [a, a + 64, a + 128, a + 192]

/-- Where a launch record that LNCH names stands: the addresses of its runs of 64 bytes, a reason of R279 for which it is rejected, or a recoverable fault
(kind, generation, block) that keeps it from being read (R204, R206). -/
inductive RecordAt where
  | at (places : List Nat)
  | rejected (reason : Nat)
  | unreadable (fault : Nat × Nat × Nat)
deriving DecidableEq, Repr

/-- The first block of n bytes of a byte object that is not at this device in memory: the record's bytes cannot be read there (R206). -/
def State.missingBlock (s : State) (r : ObjRec) (off n : Nat) : Option Nat :=
  (List.range ((n + 63) / 64)).findSome? fun k => match s.site r false [off + 64 * k, 0, 0, 0, 0, 0] with
    | .at _ => none
    | .absent b | .remote b _ => some b

/-- The address of byte off of a byte object, if its block is at this device in memory (R203). -/
def State.bytePlace (s : State) (r : ObjRec) (off : Nat) : Option Nat :=
  match s.site r false [off, 0, 0, 0, 0, 0] with
  | .at ((a, _, _) :: _) => some a
  | _ => none

/-- The addresses of the four runs of 64 bytes of a launch record at a byte offset: in a sparse object each in its own block (R203); one that the
record does not reach follows the first. -/
def State.recordPlaces (s : State) (r : ObjRec) (off : Nat) : List Nat :=
  (List.range 4).map fun k => (s.bytePlace r (off + 64 * k)).getD ((s.bytePlace r off).getD 0 + 64 * k)

/-- The launch record that LNCH names (R278, R279). The rules give the control form no outcome for a record that a recoverable fault keeps
from being read: it then answers reason 1, and the operator form raises that fault, which for a block at another device is residency
(log 72). -/
def State.launchRecord (s : State) (ctx h off : Nat) : RecordAt :=
  match s.translate ctx h 0 0 with
  | .fault _ => .rejected 1
  | .halt k g => .unreadable (k, g, 0)
  | .ok r =>
    if r.isBytes s.devId = false then .rejected 1
    else if off % 64 ≠ 0 ∨ dim r.shape 1 < off + 64 then .rejected 2
    else match s.site r false [off, 0, 0, 0, 0, 0] with
      | .at ((a, _, _) :: _) =>
        let size := 64 * ((s.readWord a).extractLsb' 8 16).toNat
        if dim r.shape 1 < off + size then .rejected 2
        else match s.missingBlock r off size with
          | some b => .unreadable (32, r.gen, b)
          | none =>
            let part := ((s.ctx? ctx).map (·.part)).getD 0
            let ps := s.recordPlaces r off
            if BitVec.ofNat 384 (s.readNat (ps.getD 1 0) 48) &&& ~~~part ≠ 0 then .rejected 3 else .at ps
      | .absent b | .remote b _ => .unreadable (32, r.gen, b)
      | .at [] => .rejected 1

/-- LNCH as an operator (R279): the cases of reasons 1 to 3 raise operand. -/
def planLnchOperator (o : OpFields) (s : State) (f : Firing) (sl : Slot) (_ : CoreCtx) (_ : Ctx) : Plan :=
  match (if (o.srcA = 0 ∨ o.srcA = 1) ∧ o.srcB = 5 then f.tok o.srcA else none) with
  | none => Plan.faults 1
  | some t =>
    let h := handleOf sl.lit0
    if litBits sl.lit0 63 24 ≠ 0 then Plan.faults 1
    else match s.translate f.ctx h 0 0 with
      | .halt c g => { halt := some (c, h, g, 0) }
      | _ =>
        if t.isPoison then Plan.faults 5
        else match s.launchRecord f.ctx h (byteOffset sl t) with
          | .rejected _ => Plan.faults 1
          | .unreadable (k, g, b) => { halt := some (k, h, g, b) }
          | .at a =>
            { inOrder := true, chest := some { cls := 2, kind := 22 },
              effect := fun s col tag => { st := s, outs := [bothOut o (.scalar 0 false) col tag], job := .launch a } }

/-! ### The Chest and the Bench seen by a graph -/

/-- A Chest entry as 256 bits (R286). -/
def Chest.word (e : Chest) : BitVec 256 :=
  BitVec.ofNat 256 (2^255 + e.st % 8 * 2^252 + e.cls % 4 * 2^250 + e.kind % 32 * 2^245 + e.slot % 512 * 2^236 + e.eng % 4 * 2^234
    + e.col % 64 * 2^228 + e.tag.toNat * 2^196 + e.sect % 256 * 2^188 + e.gen % 65536 * 2^172 + e.handle % 2^24 * 2^148
    + e.row % 128 * 2^140 + e.alloc % 8192 * 2^127 + e.dedup % 2^41 * 2^86 + e.order % 65536 * 2^70 + e.arg.toNat)

/-- A context's Chest entries on a core, in issue order. -/
def State.chestOf (s : State) (core ctx : Nat) : List Chest := s.msys.chest.filter fun e => e.core == core && e.ctx == ctx

/-- CHSV (R312): the snapshot is taken at issue. -/
def planChsv (o : OpFields) (s : State) (f : Firing) (sl : Slot) (y : CoreCtx) (_ : Ctx) : Plan :=
  match (if (o.srcA = 0 ∨ o.srcA = 1) ∧ o.srcB = 2 then f.tok o.srcA else none) with
  | none => Plan.faults 1
  | some t =>
    if litBits sl.lit0 63 24 ≠ 0 then Plan.faults 1
    else withObj s f (handleOf sl.lit0) 0 1 fun r =>
      let es := s.chestOf f.core f.ctx
      let off := byteOffset sl t
      if r.isBytes r.owner = false then Plan.faults 1
      else if t.isPoison then Plan.faults 5
      else if off % 32 ≠ 0 ∨ dim r.shape 1 < off + 32 * es.length then Plan.faults 1
      else chestPlan s 1 1 (handleOf sl.lit0) r 1 1 true true 0
        (fun _ c tag => [bothOut o (.scalar (BitVec.ofNat 64 es.length) false) c tag])
        (.snapshot (byteAccess y sl (handleOf sl.lit0) r off (32 * es.length)) (es.flatMap fun e => leBytes 32 e.word.toNat))

/-- CHRS (R312): bytes 0 to 3 count valid, issued, answered and captured entries. -/
def planChrs (o : OpFields) (s : State) (f : Firing) (_ : Slot) (_ : CoreCtx) (_ : Ctx) : Plan :=
  match (if (o.srcA = 0 ∨ o.srcA = 1) ∧ o.srcB = 5 then f.tok o.srcA else none) with
  | none => Plan.faults 1
  | some t =>
    if t.isPoison then poisonScalars o
    else
      let es := s.chestOf f.core f.ctx
      let n (k : Nat) : Nat := (es.filter fun e => e.st == k).length
      { effect := fun s col tag =>
          { st := s, outs := [bothOut o (.scalar (BitVec.ofNat 64 (es.length + 256 * n 0 + 65536 * n 1 + 16777216 * n 2)) false) col tag] } }

/-- CHRP (R312). -/
def planChrp (o : OpFields) (_ : State) (f : Firing) (_ : Slot) (_ : CoreCtx) (_ : Ctx) : Plan :=
  match (if (o.srcA = 0 ∨ o.srcA = 1) ∧ o.srcB = 5 then f.tok o.srcA else none) with
  | none => Plan.faults 1
  | some t =>
    { inOrder := true, chest := some { cls := 0, kind := 9 },
      effect := fun s col tag => { st := s, outs := [bothOut o (.forward t) col tag], job := .chestWait } }

/-- TKRP (R348): the entry is marked WAIT; the result is sent once it is in state 4. -/
def planTkrp (o : OpFields) (s : State) (f : Firing) (_ : Slot) (_ : CoreCtx) (_ : Ctx) : Plan :=
  match (if (o.srcA = 0 ∨ o.srcA = 1) ∧ o.srcB = 5 then f.tok o.srcA else none) with
  | none => Plan.faults 1
  | some t =>
    if t.isTile then Plan.faults 1
    else if t.isPoison then poisonScalars o
    else match (s.benchOf f.core).find? fun b => b.ctx == f.ctx && b.ref == t.w0 with
      | none => Plan.faults 1
      | some b =>
        if b.wait then Plan.faults 1
        else
          { effect := fun s col tag =>
              { st := s.modBench f.core b.idx fun b => { b with wait := true },
                outs := [{ codes := [o.dest0.toNat], val := .scalar 0 false, col := col, tag := tag },
                         { codes := [o.dest1.toNat], val := .scalar 0 false, col := col, tag := tag }],
                job := .ticketResult b.idx } }

/-- TKCL (R348): the entries of the object, whichever handle here names it, go together, before any that waited behind them. -/
def planTkcl (o : OpFields) (_ : State) (f : Firing) (sl : Slot) (_ : CoreCtx) (_ : Ctx) : Plan :=
  match (if (o.srcA = 0 ∨ o.srcA = 1) ∧ o.srcB = 5 then f.tok o.srcA else none) with
  | none => Plan.faults 1
  | some t =>
    if litBits sl.lit0 63 24 ≠ 0 then Plan.faults 1
    else if t.isPoison then Plan.faults 5
    else
      { effect := fun s _ _ =>
          let h := handleOf sl.lit0
          let block := sl.lit1.toNat
          let object (b : Bench) : Bool := match s.obj? h with
            | some r => if r.owner = s.devId then b.handle == h else b.owner == r.owner && b.ohandle == r.base % 2^24
            | none => b.handle == h
          let s := s.failBenches f.core f.ctx ((s.benchOf f.core).filter fun b => b.ctx == f.ctx && object b && b.forBlocks.contains block)
          let s : State := match s.obj? h with
            | some r =>
              if r.owner = s.devId then s
              else s.sendPacket f.core f.ctx r.owner 0 false (.cancel (r.base % 2^24) block)
            | none => s
          { st := s.raise f.ctx f.sect 3 } }

/-- TKQ (R348): bytes 0 to 4 count the entries in states 0, 1, 2 or 5, 3, and 4. -/
def planTkq (o : OpFields) (s : State) (f : Firing) (_ : Slot) (_ : CoreCtx) (_ : Ctx) : Plan :=
  match (if (o.srcA = 0 ∨ o.srcA = 1) ∧ o.srcB = 5 then f.tok o.srcA else none) with
  | none => Plan.faults 1
  | some t =>
    if t.isPoison then poisonScalars o
    else
      let n (p : Nat → Bool) : Nat := ((s.benchOf f.core).filter fun b => b.ctx == f.ctx && p b.st).length
      { effect := fun s col tag =>
          { st := s, outs := [bothOut o (.scalar (BitVec.ofNat 64 (n (· == 0) + 2^8 * n (· == 1)
              + 2^16 * n (fun k => k == 2 || k == 5) + 2^24 * n (· == 3) + 2^32 * n (· == 4))) false) col tag] } }

/-! ### Barriers -/

/-- BARA (R189). -/
def planBara (o : OpFields) (s : State) (f : Firing) (sl : Slot) (_ : CoreCtx) (_ : Ctx) : Plan :=
  let a := operand f sl [0, 1] o.srcA
  if o.srcB ≠ 2 ∨ a.ok = false then Plan.faults 1
  else withObj s f (handleOf sl.lit0) 2 2 fun r =>
    if a.poison then Plan.faults 5
    else chestPlan s 2 13 (handleOf sl.lit0) r 1 1 false (f.eng == .s) 0 (fun _ c tag => [bothOut o (.scalar 0 false) c tag])
      (.barrierArrive (handleOf sl.lit0) r)

/-- BARW (R190). -/
def planBarw (o : OpFields) (s : State) (f : Firing) (sl : Slot) (_ : CoreCtx) (_ : Ctx) : Plan :=
  match (if (o.srcA = 0 ∨ o.srcA = 1) ∧ o.srcB = 2 then f.tok o.srcA else none) with
  | none => Plan.faults 1
  | some t =>
    if t.isTile then Plan.faults 1
    else withObj s f (handleOf sl.lit0) 2 0 fun r =>
      if t.isPoison then ({ poisonScalars o with inOrder := true } : Plan)
      else chestPlan s 0 14 (handleOf sl.lit0) r 1 1 false true t.w0 (fun _ c tag => [bothOut o (.scalar 0 false) c tag])
        (.barrierWait (handleOf sl.lit0) r (t.w0.extractLsb' 0 32).toNat)

/-! ### Meanings: the issue of a firing of each operator -/

/-- TLD (R131). -/
def execTld (f : OpFields) (s : State) : Host.Outcome State Fault Refusal := issueWith s f (planTld f)

/-- TLDG (R242). -/
def execTldg (f : OpFields) (s : State) : Host.Outcome State Fault Refusal := issueWith s f (planTldg f)

/-- TST (R132). -/
def execTst (f : OpFields) (s : State) : Host.Outcome State Fault Refusal := issueWith s f (planTst f)

/-- TSTS (R243). -/
def execTsts (f : OpFields) (s : State) : Host.Outcome State Fault Refusal := issueWith s f (planTsts f)

/-- SLD (R133). -/
def execSld (f : OpFields) (s : State) : Host.Outcome State Fault Refusal := issueWith s f (planSld f)

/-- SST (R134). -/
def execSst (f : OpFields) (s : State) : Host.Outcome State Fault Refusal := issueWith s f (planSst f)

/-- ATAD (R245). -/
def execAtad (f : OpFields) (s : State) : Host.Outcome State Fault Refusal := issueWith s f (planAtad f)

/-- ATMN (R245). -/
def execAtmn (f : OpFields) (s : State) : Host.Outcome State Fault Refusal := issueWith s f (planAtmn f)

/-- ATMX (R245). -/
def execAtmx (f : OpFields) (s : State) : Host.Outcome State Fault Refusal := issueWith s f (planAtmx f)

/-- ATXC (R245). -/
def execAtxc (f : OpFields) (s : State) : Host.Outcome State Fault Refusal := issueWith s f (planAtxc f)

/-- ATCS (R245). -/
def execAtcs (f : OpFields) (s : State) : Host.Outcome State Fault Refusal := issueWith s f (planAtcs f)

/-- FNC_ENGINE (R246). -/
def execFncEngine (f : OpFields) (s : State) : Host.Outcome State Fault Refusal := issueWith s f (planFncEngine f)

/-- FNC_CORE (R246). -/
def execFncCore (f : OpFields) (s : State) : Host.Outcome State Fault Refusal := issueWith s f (planFncCore f)

/-- FNC_QUAD (R246). -/
def execFncQuad (f : OpFields) (s : State) : Host.Outcome State Fault Refusal := issueWith s f (planFncQuad f)

/-- FNC_CLUSTER (R246). -/
def execFncCluster (f : OpFields) (s : State) : Host.Outcome State Fault Refusal := issueWith s f (planFncCluster f)

/-- FNC_DIE (R246). -/
def execFncDie (f : OpFields) (s : State) : Host.Outcome State Fault Refusal := issueWith s f (planFncDie f)

/-- FNC_DEVICE (R246). -/
def execFncDevice (f : OpFields) (s : State) : Host.Outcome State Fault Refusal := issueWith s f (planFncDevice f)

/-- FNC_SYSTEM (R246). -/
def execFncSystem (f : OpFields) (s : State) : Host.Outcome State Fault Refusal := issueWith s f (planFncSystem f)

/-- RPUSH (R247, R248, R251). -/
def execRpush (f : OpFields) (s : State) : Host.Outcome State Fault Refusal := issueWith s f (planRpush f)

/-- RPOP (R247, R249, R251). -/
def execRpop (f : OpFields) (s : State) : Host.Outcome State Fault Refusal := issueWith s f (planRpop f)

/-- STADV (R269). -/
def execStadv (f : OpFields) (s : State) : Host.Outcome State Fault Refusal := issueWith s f (planStadv f)

/-- CNADD (R271). -/
def execCnadd (f : OpFields) (s : State) : Host.Outcome State Fault Refusal := issueWith s f (planCnadd f)

/-- CNWT (R272). -/
def execCnwt (f : OpFields) (s : State) : Host.Outcome State Fault Refusal := issueWith s f (planCnwt f)

/-- CNRD (R273). -/
def execCnrd (f : OpFields) (s : State) : Host.Outcome State Fault Refusal := issueWith s f (planCnrd f)

/-- SHOP (R274). -/
def execShop (f : OpFields) (s : State) : Host.Outcome State Fault Refusal := issueWith s f (planShop f)

/-- PUBL (R274). -/
def execPubl (f : OpFields) (s : State) : Host.Outcome State Fault Refusal := issueWith s f (planPubl f)

/-- NMIV (R265, R266, R275). -/
def execNmiv (f : OpFields) (s : State) : Host.Outcome State Fault Refusal := issueWith s f (planNmiv f)

/-- MCST (R276). -/
def execMcst (f : OpFields) (s : State) : Host.Outcome State Fault Refusal := issueWith s f (planMcst f)

/-- CMPR (R277). -/
def execCmpr (f : OpFields) (s : State) : Host.Outcome State Fault Refusal := issueWith s f (planCmpr f)

/-- LNCH_OPERATOR (R279). -/
def execLnchOperator (f : OpFields) (s : State) : Host.Outcome State Fault Refusal := issueWith s f (planLnchOperator f)

/-- CHSV (R312). -/
def execChsv (f : OpFields) (s : State) : Host.Outcome State Fault Refusal := issueWith s f (planChsv f)

/-- CHRS (R312). -/
def execChrs (f : OpFields) (s : State) : Host.Outcome State Fault Refusal := issueWith s f (planChrs f)

/-- CHRP (R312). -/
def execChrp (f : OpFields) (s : State) : Host.Outcome State Fault Refusal := issueWith s f (planChrp f)

/-- TKRP (R348). -/
def execTkrp (f : OpFields) (s : State) : Host.Outcome State Fault Refusal := issueWith s f (planTkrp f)

/-- TKCL (R348). -/
def execTkcl (f : OpFields) (s : State) : Host.Outcome State Fault Refusal := issueWith s f (planTkcl f)

/-- TKQ (R348). -/
def execTkq (f : OpFields) (s : State) : Host.Outcome State Fault Refusal := issueWith s f (planTkq f)

/-- BARA (R189). -/
def execBara (f : OpFields) (s : State) : Host.Outcome State Fault Refusal := issueWith s f (planBara f)

/-- BARW (R190). -/
def execBarw (f : OpFields) (s : State) : Host.Outcome State Fault Refusal := issueWith s f (planBarw f)

end Sys2Proof.Machine
end

