-- ==== Sys2Proof/Machine/Graph.lean ====
section
/-! DEFINITION. Loading graph image blocks (R68, R69, R109, R303), destination entries (R110), injecting tokens (R111, R112)
and receiving them (R113), with the events that end their waits. -/

namespace Sys2Proof.Machine

/-! ### Discarding what waits for a section (R162, R169, R297, R303) -/

/-- Discard the Drawers, ready firings and colour waits of slots that satisfy a test: tokens count as orphans, tiles are
freed. -/
def State.discardWaiting (s : State) (ctx : Nat) (p : Nat → Eng → Nat → Bool) : State :=
  let ds := s.flow.drawers.filter fun d => d.ctx == ctx && p d.core d.eng d.slot
  let rs := (s.flow.ready ++ s.flow.cwait).filter fun r => r.ctx == ctx && p r.core r.eng r.slot
  let toks : List (Nat × Token) :=
    (ds.flatMap fun d => (d.a.toList ++ d.b.toList ++ d.p.toList).map fun t => (d.core, t))
      ++ rs.flatMap fun r => (r.a.toList ++ r.b.toList ++ r.p.toList).map fun t => (r.core, t)
  let s := toks.foldl (fun s q => s.dropTile q.1 q.2) (s.orphans ctx toks.length)
  s.modFlow fun w => { w with
    drawers := w.drawers.filter fun d => !(d.ctx == ctx && p d.core d.eng d.slot)
    ready := w.ready.filter fun r => !(r.ctx == ctx && p r.core r.eng r.slot)
    cwait := w.cwait.filter fun r => !(r.ctx == ctx && p r.core r.eng r.slot) }

/-- Whether a slot of a context belongs to one of some sections. -/
def State.slotIn (s : State) (ctx : Nat) (sects : List Nat) (core : Nat) (eng : Eng) (slot : Nat) : Bool :=
  match s.slot? core ctx eng slot with
  | some t => sects.contains t.sect
  | none => false

/-- Return to their pools the colours that some sections allocated, a colour already received by a wait among them (R169); one
whose return already waits goes back once. -/
def State.returnColours (s : State) (ctx : Nat) (sects : List Nat) : State :=
  s.modFlow fun w => { w with
    returns := w.returns ++ ((s.cores.filter fun x => x.ctx == ctx).flatMap fun x =>
      (x.pool.filter fun q => sects.contains q.2 && !(w.returns.any fun r => r.core == x.core && r.ctx == ctx && r.col == q.1)).map fun q =>
        { core := x.core, ctx := ctx, col := q.1, due := s.ck }) }

/-! ### Graph image blocks (R68) -/

/-- A graph image block as read. -/
structure Block where
  hdr : Word
  rest : Word
  words : List (BitVec 32)
  sides : List (BitVec 256)
  entries : List Word

/-- A field of a block header. -/
def hdrField (h : Word) (lo n : Nat) : Nat := (h.extractLsb' lo n).toNat

/-- Slot count n, first slot F, entry count m, first entry D, section (R68). -/
def Block.n (b : Block) : Nat := hdrField b.hdr 11 10
/-- First slot. -/
def Block.f (b : Block) : Nat := hdrField b.hdr 2 9
/-- Entry count. -/
def Block.m (b : Block) : Nat := hdrField b.hdr 28 7
/-- First entry. -/
def Block.d (b : Block) : Nat := hdrField b.hdr 21 7
/-- Section id. -/
def Block.sect (b : Block) : Nat := hdrField b.hdr 36 8
/-- The engine. -/
def Block.eng (b : Block) : Eng := engOfCode (hdrField b.hdr 0 2)
/-- The switch bit. -/
def Block.sw (b : Block) : Bool := b.hdr.getLsbD 35

/-- Bytes of a block from its header (R68). -/
def blockSize (hdr : Word) : Nat := alignUp 32 (16 + 4 * hdrField hdr 11 10) + 32 * hdrField hdr 11 10 + 8 * hdrField hdr 28 7

/-- Read a block through a reader of n bytes at an offset. -/
def readBlock (rd : Nat → Nat → List Byte) : Block :=
  let hdr := leWord (rd 0 8)
  let n := hdrField hdr 11 10
  let so := alignUp 32 (16 + 4 * n)
  { hdr := hdr, rest := leWord (rd 8 8),
    words := (List.range n).map fun i => BitVec.ofNat 32 (leNat (rd (16 + 4 * i) 4)),
    sides := (List.range n).map fun i => BitVec.ofNat 256 (leNat (rd (so + 32 * i) 32)),
    entries := (List.range (hdrField hdr 28 7)).map fun i => leWord (rd (so + 32 * n + 8 * i) 8) }

/-- Whether a side record's fields are legal for an engine (R38, R65). -/
def sideOk (e : Eng) (w : BitVec 256) : Bool :=
  let rm := (w.extractLsb' 132 3).toNat
  (w.extractLsb' 145 111).toNat == 0 && decide ((w.extractLsb' 136 2).toNat ≤ 1) && (decide (rm ≤ 4) || (rm == 7 && e == .s))

/-- The first index at which a check fails. -/
def firstBadIx {α : Type} (p : α → Bool) (from_ : Nat) : List α → Option Nat
  | [] => none
  | x :: t => if p x then firstBadIx p (from_ + 1) t else some from_

/-- The slots of a block that belong to active sections of the context on any core's slot table (R69 reason 8). -/
def State.activeSlots (s : State) (core ctx : Nat) (b : Block) : List Nat :=
  match s.ctx? ctx with
  | none => []
  | some x => (List.range b.n).map (· + b.f) |>.filter fun i =>
    match s.slot? core ctx b.eng i with
    | some t => (x.section? t.sect).any fun q => q.active
    | none => false

/-- The checks of R69: the reason and index of the rejection, if any. -/
def State.blockReject (s : State) (core ctx : Nat) (b : Block) : Option (Nat × Nat) :=
  let w := b.words
  let fields := w.map wordFields
  let hdrOk := hdrField b.hdr 44 20 == 0 && b.rest == 0 && hdrField b.hdr 0 2 != 3 && decide (b.n ≤ 512) && decide (b.f + b.n ≤ 512)
    && decide (b.m ≤ 126) && (b.m == 0 || (decide (1 ≤ b.d) && decide (b.d + b.m ≤ 127)))
    && match (s.ctx? ctx).bind fun x => x.section? b.sect with
      | some t => t.cset.getLsbD core
      | none => false
  let first (r : Nat) (i : Option Nat) (k : Option (Nat × Nat)) : Option (Nat × Nat) := match i with
    | some i => some (r, i)
    | none => k
  if !hdrOk then some (1, 0)
  else first 2 (firstBadIx (fun x => opLegalOn (wordOp x) b.eng) b.f w)
    (first 3 (firstBadIx (fun (x : OpFields) => x.srcA != 7 && x.srcB != 7 && (b.eng == .m || (x.srcA != 4 && x.srcB != 4))) b.f fields)
    (first 4 (firstBadIx (fun (x : OpFields) => decide (x.tag.toNat < 10)) b.f fields)
    (first 5 (firstBadIx (fun x => (wordFields x).declA || (wordFields x).declB || opTakesP (wordOp x)) b.f w)
    (first 6 (firstBadIx (sideOk b.eng) b.f b.sides)
    (first 7 (firstBadIx entryOk b.d b.entries)
    (if b.sw then none else (s.activeSlots core ctx b).head?.map fun i => (8, i)))))))

/-- The status word of a rejected GLOAD or DSET (R69). -/
def statusWord (r i : Nat) : Word := BitVec.ofNat 64 (r * 4096 + i % 1024)

/-- A slot from its word and side record (R65). -/
def slotOf (core ctx : Nat) (e : Eng) (i sect : Nat) (w : BitVec 32) (sd : BitVec 256) : Slot :=
  { core := core, ctx := ctx, eng := e, slot := i, word := w, lit0 := sd.extractLsb' 0 64, lit1 := sd.extractLsb' 64 64,
    acc := (sd.extractLsb' 128 2).toNat, ecls := (sd.extractLsb' 130 2).toNat, rm := (sd.extractLsb' 132 3).toNat,
    brk := sd.getLsbD 135, edge := (sd.extractLsb' 136 2).toNat, fen := sd.getLsbD 138, fcol := (sd.extractLsb' 139 6).toNat,
    sect := sect }

/-- Bytes of the M save area: 331 granules (R119). -/
def saveAreaBytes : Nat := 169472

/-- Ask for the M save area when a context's first M block is loaded on a core (R119). -/
def State.askSaveArea (s : State) (core ctx : Nat) : State :=
  match s.cctx? core ctx with
  | some y =>
    if y.areaAsked then s
    else
      let s := s.modCctx core ctx fun y => { y with areaAsked := true }
      if s.flow.reqs.any fun r => r.core == core then
        s.modFlow fun w => { w with reqs := w.reqs ++ [{ core := core, bytes := saveAreaBytes, who := .saveArea ctx }] }
      else match s.allocate core ctx saveAreaBytes with
        | some (s', a) => s'.modCctx core ctx fun y => { y with area := some a.idx }
        | none => s.modFlow fun w => { w with reqs := w.reqs ++ [{ core := core, bytes := saveAreaBytes, who := .saveArea ctx }] }
  | none => s

/-- Arm a section on a core (R161): its count starts at 0; a section that had finished begins anew on every core. -/
def State.armSection (s : State) (core ctx sect : Nat) : State :=
  match (s.ctx? ctx).bind fun x => x.section? sect with
  | none => s
  | some t =>
    let s : State := if t.finished then
        { s with cores := modify (fun x => x.ctx == ctx) (fun x => { x with sects := x.sects.filter fun q => q.sect != sect }) s.cores }
      else s
    let s := s.modCctx core ctx fun x =>
      if x.sects.any fun q => q.sect == sect then x else { x with sects := x.sects ++ [{ sect := sect, count := 0, spent := false }] }
    s.modCtx ctx fun x => x.modSection sect fun q => { q with active := true, finished := false }

/-- Write an accepted block (R109): slots and entries are replaced, the section is armed, and the end-of-stream memory of the
written slots ends (R26). -/
def State.writeBlock (s : State) (core ctx : Nat) (b : Block) : State :=
  let new := (b.words.zip b.sides).zipIdx.map fun (q, i) => slotOf core ctx b.eng (b.f + i) b.sect q.1 q.2
  let inRun (c x : Nat) (e : Eng) (i : Nat) : Bool := c == core && x == ctx && e == b.eng && decide (b.f ≤ i ∧ i < b.f + b.n)
  let ents : List Dest := b.entries.zipIdx.map fun (e, i) => { core := core, ctx := ctx, eng := b.eng, idx := b.d + i, entry := e }
  let s := s.modFlow fun w => { w with
    slots := (w.slots.filter fun t => !inRun t.core t.ctx t.eng t.slot) ++ new
    dests := (w.dests.filter fun d => !(d.core == core && d.ctx == ctx && d.eng == b.eng && decide (b.d ≤ d.idx ∧ d.idx < b.d + b.m))) ++ ents }
  let s := s.modCctx core ctx fun x => { x with eosSeen := x.eosSeen.filter fun q => !inRun core ctx q.1 q.2.1 }
  let s := s.armSection core ctx b.sect
  if b.eng = .m then s.askSaveArea core ctx else s

/-- The sections that a switching block replaces (R303). -/
def State.switched (s : State) (core ctx : Nat) (b : Block) : List Nat :=
  ((s.activeSlots core ctx b).filterMap fun i => (s.slot? core ctx b.eng i).map (·.sect)).eraseDups

/-- Whether firings of some sections are in progress on a core (R303 step 1). -/
def State.inProgress (s : State) (core ctx : Nat) (sects : List Nat) : Bool :=
  s.flow.firings.any fun f => f.core == core && f.ctx == ctx && sects.contains f.sect && f.phase != .sent

/-- Step 2 of a switch (R303): no slot of the old sections issues again on any core; what waits for them is discarded. A core of theirs
that has not loaded one counts as spent for it, so that it ends as Finished; section `new` is armed again. -/
def State.switchOut (s : State) (ctx : Nat) (sects : List Nat) (new : Nat) : State :=
  let s := (s.discardWaiting ctx (s.slotIn ctx sects)).returnColours ctx sects
  let cset (i : Nat) : BitVec 384 := (((s.ctx? ctx).bind fun x => x.section? i).map (·.cset)).getD 0
  let unloaded (x : CoreCtx) : List SectCore :=
    (sects.filter fun i => i != new && inMask (cset i) x.core && !(x.sects.any fun q => q.sect == i)).map fun i =>
      { sect := i, count := 0, spent := true }
  { s with cores := modify (fun x => x.ctx == ctx) (fun x => { x with
      sects := modify (fun q => sects.contains q.sect) (fun q => { q with spent := true }) x.sects ++ unloaded x }) s.cores }

/-- Load a checked block of a switch: the section's count restarts on this core. -/
def State.switchIn (s : State) (core ctx : Nat) (b : Block) (old : List Nat) : State :=
  let s := s.switchOut ctx old b.sect
  let s := if old.contains b.sect then
      s.modCctx core ctx fun x => { x with sects := x.sects.filter fun q => q.sect != b.sect }
    else s
  s.writeBlock core ctx b

/-- Read a block at a control-core address. -/
def State.ctlBlock (s : State) (c : Ctl) (a : Word) : Block := readBlock fun o n => s.ctlRead c (a + BitVec.ofNat 64 o) n

/-- GLOAD of the block at address x by a control core (R109, R303): the checks of R86 and of R69, in this order, before anything is
written; the write, or the wait for the firings of the old sections. -/
def State.gloadAt (s : State) (c : Ctl) (d : Reg) (x : Word) : Host.Outcome State Fault Refusal :=
  match c.accessCheck false x 8 32 with
  | some (k, v) => trapAt s c k v
  | none =>
    let size := blockSize (leWord (s.ctlRead c x 8))
    match c.accessCheck false x size 32, s.ctlPoison c x size with
    | some (k, v), _ => trapAt s c k v
    | none, some v => trapAt s c 7 v
    | none, none =>
      match c.owner with
      | none => complete s c (c.setReg d (statusWord 1 0))
      | some ctx =>
        let b := s.ctlBlock c x
        match s.blockReject c.core ctx b with
        | some (r, i) => complete s c (c.setReg d (statusWord r i))
        | none =>
          let old := if b.sw then s.switched c.core ctx b else []
          if s.inProgress c.core ctx old then waitFor s c (.gloadSwitch d x.toNat)
          else completeIn s (if old.isEmpty then s.writeBlock c.core ctx b else s.switchIn c.core ctx b old) c (c.setReg d 0)

/-- GLOAD (R109, R303). -/
def execGload (d : Reg) (a : Reg) (s : State) : Host.Outcome State Fault Refusal :=
  let c := s.running
  s.gloadAt c d (c.reg a)

/-- GLOAD_SWITCH_WRITE (R109, R303): the wait ends when no firing of the old sections is in progress on the core; the block, which an
engine may have written meanwhile, is read and checked whole before it is written. -/
def execGloadSwitchWrite (core : Nat) (s : State) : Host.Outcome State Fault Refusal :=
  let c := s.ctl core
  match c.wait, c.owner with
  | .gloadSwitch d a, some ctx =>
    if s.runs ctx = false ∨ s.waitGoes c = false ∨ s.inProgress core ctx (s.switched core ctx (s.ctlBlock c (BitVec.ofNat 64 a))) = true
    then finish s s
    else s.gloadAt c d (BitVec.ofNat 64 a)
  | _, _ => finish s s

/-- Write one destination entry (R66, R110). -/
def State.setDest (s : State) (core ctx : Nat) (e : Eng) (i : Nat) (w : Word) : State :=
  s.modFlow fun q => { q with
    dests := upsert (fun d => d.core == core && d.ctx == ctx && d.eng == e && d.idx == i)
      { core := core, ctx := ctx, eng := e, idx := i, entry := w } q.dests }

/-- DSET (R110). -/
def execDset (d : Reg) (a : Reg) (b : Reg) (s : State) : Host.Outcome State Fault Refusal :=
  let c := s.running
  let sel := c.reg a
  let e := (sel.extractLsb' 0 2).toNat
  let i := (sel.extractLsb' 8 7).toNat
  if e = 3 ∨ i = 0 ∨ i = 127 ∨ (sel.extractLsb' 2 6).toNat ≠ 0 ∨ (sel.extractLsb' 15 49).toNat ≠ 0 then
    complete s c (c.setReg d (statusWord 9 0))
  else if entryOk (c.reg b) = false then complete s c (c.setReg d (statusWord 7 i))
  else match c.owner with
    | some ctx => completeIn s (s.setDest c.core ctx (engOfCode e) i (c.reg b)) c (c.setReg d 0)
    | none => complete s c (c.setReg d 0)

/-! ### Injection -/

/-- Whether a descriptor is legal for a core (R72) in a token whose poison bit is `psn` (R11). -/
def State.descLegal (s : State) (core : Nat) (psn : Bool) (w0 w1 : Word) : Bool :=
  let d := Desc.ofWords w0 w1
  d.fieldsOk && d.psn == psn && s.flow.allocs.any fun (a : Alloc) => a.core == core && a.idx == d.alloc

/-- The lowest reason for which INJ rejects a token (R111), `pred` for INJP (R112): `tileCore` is the core whose scratchpad
holds a tile. -/
def State.injReject (s : State) (ctx tileCore : Nat) (pred : Bool) (h0 h1 w0 w1 : Word) : Option Nat :=
  let t := Token.ofWords h0 h1 w0 w1
  let part := ((s.ctx? ctx).map (·.part)).getD 0
  let isP := decide (t.kind = 5 ∨ t.kind = 6)
  let payloadOk := match t.kind with
    | 1 | 6 => w1 == 0
    | 2 => (w0 &&& ~~~(1 : Word)) == 0 && w1 == 0
    | 3 | 4 => w0 == 0 && w1 == 0
    | _ => true
  if 383 < t.core ∨ part.getLsbD t.core = false then some 1
  else if t.port = 3 then some 2
  else if (if pred then t.kind ≠ 2 ∨ t.port ≠ 2 else t.kind = 7 ∨ t.kind = 2) then some 3
  else if t.psn ≠ isP then some 4
  else if (h1.extractLsb' 32 32).toNat ≠ 0 ∨ payloadOk = false then some 5
  else if (t.kind = 0 ∨ t.kind = 5) ∧ s.descLegal tileCore t.psn w0 w1 = false then some 6
  else none

/-- A token on its way from a control core: a tile for another core takes its bytes along (R111). -/
def State.injTok (s : State) (core : Nat) (t : Token) : NetTok :=
  { srcCore := core, srcEng := .c, tok := t,
    body := if (t.kind = 0 ∨ t.kind = 5) ∧ t.core ≠ core then some (s.tileBytes core (Desc.ofWords t.w0 t.w1)) else none,
    fromDev := none, toDev := none, strm := 0 }

/-- Whether the network takes a control core's token: no token waits at its destination's ingress on the same channel (R28,
R179; log 22). -/
def State.netTakes (s : State) (core : Nat) (t : Token) : Bool := !s.laneBusy (s.injTok core t)

/-- Hand a control core's token to the network: a tile sent locally gains a reference, and k.seq rises (R111). -/
def State.sendInj (s : State) (c : Ctl) (t : Token) : State × Ctl :=
  let s := if t.core = c.core then (match t.alloc? with | some i => s.addRefs c.core i 1 | none => s) else s
  let (s, c) := s.drain c
  (s.launchTok (s.injTok c.core t), { c with seq := c.seq + 1 })

/-- The mould of INJ and INJP. An injection is a release: the buffered stores leave first (R88). -/
def injectWith (s : State) (c : Ctl) (pred : Bool) (h0 h1 w0 w1 : Word) : Host.Outcome State Fault Refusal :=
  match c.owner with
  | none => trapAt s c 11 1
  | some ctx =>
    match s.injReject ctx c.core pred h0 h1 w0 w1 with
    | some r => trapAt s c 11 (BitVec.ofNat 64 r)
    | none =>
      let t := { Token.ofWords h0 h1 w0 w1 with ctx := ctx, seq := c.seq.toNat % 65536 }
      if s.netTakes c.core t then
        let r := s.sendInj c t
        completeIn s r.1 c r.2
      else waitFor s c (.inject t)

/-- INJ (R111). -/
def execInj (b : Reg) (s : State) : Host.Outcome State Fault Refusal :=
  let c := s.running
  injectWith s c false (c.reg b) (c.reg (groupReg b 1)) (c.reg (groupReg b 2)) (c.reg (groupReg b 3))

/-- INJP (R112). -/
def execInjp (a : Reg) (b : Reg) (s : State) : Host.Outcome State Fault Refusal :=
  let c := s.running
  injectWith s c true (c.reg b) (c.reg (groupReg b 1)) (c.reg a &&& 1) 0

/-- INJ_ACCEPT (R111). -/
def execInjAccept (core : Nat) (s : State) : Host.Outcome State Fault Refusal :=
  let c := s.ctl core
  match c.wait with
  | .inject t =>
    if s.waitGoes c && s.netTakes core t then
      let r := s.sendInj c t
      completeIn s r.1 c r.2
    else finish s s
  | _ => finish s s

/-! ### Reception -/

/-- Take the oldest token (R113): its words go to the group, and the tile of the TRECV before it is released (R13 rule 6). -/
def State.takeToken (s : State) (c : Ctl) (d : Reg) : Option (State × Ctl) :=
  match c.rq with
  | [] => none
  | t :: rest =>
    let s := match c.lastTile with
      | some i => s.release c.core i
      | none => s
    some (s, { c with rq := rest, lastTile := t.alloc? }.setGroup d [t.h0, t.h1, t.w0, t.w1])

/-- TRECV (R113). -/
def execTrecv (d : Reg) (s : State) : Host.Outcome State Fault Refusal :=
  let c := s.running
  match s.takeToken c d with
  | some r => completeIn s r.1 c r.2
  | none => waitFor s c (.trecv d)

/-- TRECV_RETURN (R113). -/
def execTrecvReturn (core : Nat) (s : State) : Host.Outcome State Fault Refusal :=
  let c := s.ctl core
  match c.wait with
  | .trecv d =>
    match s.takeToken c d with
    | some r => if s.waitGoes c then completeIn s r.1 c r.2 else finish s s
    | none => finish s s
  | _ => finish s s

end Sys2Proof.Machine
end

