-- ==== Sys2Proof/Machine/System.lean ====
section
/-! DEFINITION. FENCE (R107, R226, R347), the system instructions (R114), and the traps that no instruction raises (R61, R93,
R305). -/

namespace Sys2Proof.Machine

/-- Whether Bench entries of a context hold a system fence on a core (R226, R347): those of the core, and on another core those whose
firing has sent its completion, so that the fence may be ordered after them, and whose access is not yet performed at its owner. -/
def State.benchBusy (s : State) (core ctx : Nat) : Bool :=
  s.msys.bench.any fun b => b.ctx == ctx && b.st != 4
    && (b.core == core || (s.firing? b.fid).any fun f => f.phase == Phase.sent)

/-- Whether a fence of a scope may complete: only a system fence waits, for its context's Bench entries; every other effect
ordered before it has been performed when its token or instruction was seen to complete (log 6). -/
def State.fenceReady (s : State) (c : Ctl) (scope : Nat) : Bool :=
  match c.owner with
  | some ctx => scope != 6 || !s.benchBusy c.core ctx
  | none => true

/-- The mould of FENCE (R107): scopes from core up drain the store buffer. -/
def fenceWith (scope : Nat) (s : State) : Host.Outcome State Fault Refusal :=
  let c := s.running
  if scope = 0 then complete s c c
  else
    let r := s.drain c
    if s.fenceReady c scope then completeIn s r.1 c r.2 else finish s (r.1.setCtl { r.2 with wait := .fence scope })

/-- FENCE.engine (R107): it never waits and drains nothing. -/
def execFenceEngine (s : State) : Host.Outcome State Fault Refusal := fenceWith 0 s
/-- FENCE.core (R107). -/
def execFenceCore (s : State) : Host.Outcome State Fault Refusal := fenceWith 1 s
/-- FENCE.quad (R107). -/
def execFenceQuad (s : State) : Host.Outcome State Fault Refusal := fenceWith 2 s
/-- FENCE.cluster (R107). -/
def execFenceCluster (s : State) : Host.Outcome State Fault Refusal := fenceWith 3 s
/-- FENCE.die (R107). -/
def execFenceDie (s : State) : Host.Outcome State Fault Refusal := fenceWith 4 s
/-- FENCE.device (R107). -/
def execFenceDevice (s : State) : Host.Outcome State Fault Refusal := fenceWith 5 s
/-- FENCE.system (R107). -/
def execFenceSystem (s : State) : Host.Outcome State Fault Refusal := fenceWith 6 s

/-- FENCE_COMPLETE (R226): a waiting fence completes. -/
def execFenceComplete (core : Nat) (s : State) : Host.Outcome State Fault Refusal :=
  let c := s.ctl core
  match c.wait with
  | .fence scope => if s.waitGoes c && s.fenceReady c scope then complete s c c else finish s s
  | _ => finish s s

/-- ECALL (R96, R114): it completes, its loop end check included, and then traps. -/
def execEcall (s : State) : Host.Outcome State Fault Refusal :=
  let c := s.running
  let n := c.advance c
  finish s (s.syncTrap n 8 n.pc 0)

/-- EBREAK (R91, R96, R114): it completes and then traps, or stops the control core while the debugger is attached. -/
def execEbreak (s : State) : Host.Outcome State Fault Refusal :=
  let c := s.running
  let n := c.advance c
  if s.debugged c then finish s (s.stopCtl n 7 0) else finish s (s.syncTrap n 9 n.pc 0)

/-- ERET (R92, R114). -/
def execEret (s : State) : Host.Outcome State Fault Refusal :=
  let c := s.running
  if c.priv = false then trapAt s c 3 ((s.fetchWord c.core c.pc).zeroExtend 64) else finish s (s.setCtl c.eret)

/-- Whether WFE's wait has ended: EVT, RQN or a PEND bit is 1 (R114). -/
def Ctl.woken (c : Ctl) : Bool := c.evt || !c.rq.isEmpty || c.pend

/-- WFE (R114). -/
def execWfe (s : State) : Host.Outcome State Fault Refusal :=
  let c := s.running
  if c.woken then complete s c { c with status := setBit c.status 7 false } else waitFor s c .wfe

/-- WFE_WAKE (R114). -/
def execWfeWake (core : Nat) (s : State) : Host.Outcome State Fault Refusal :=
  let c := s.ctl core
  if c.wait = .wfe ∧ c.woken = true ∧ s.waitGoes c = true then complete s c { c with status := setBit c.status 7 false }
  else finish s s

/-- SEV (R114, R160): every control core that the running context owns. -/
def execSev (s : State) : Host.Outcome State Fault Refusal :=
  let c := s.running
  let wake (d : Ctl) : Ctl := if c.owner.isSome ∧ d.owner = c.owner then { d with status := setBit d.status 7 true } else d
  let t := { s with ctls := s.ctls.map wake }
  completeIn s t c (t.ctl c.core)

/-- The asynchronous cause to take: the lowest pending code (R93). -/
def Ctl.asyncCode (c : Ctl) : Option Nat := [16, 17, 18].find? fun k => c.status.getLsbD (k + 16)

/-- Whether an asynchronous cause may be taken: IE is 1 and the core stands at an instruction boundary or in a wait that is
abandoned (R93). -/
def Ctl.asyncDue (c : Ctl) : Bool :=
  c.ie && c.pend && c.run == .running && match c.wait with
    | .none | .trecv _ | .inject _ | .launch _ _ => true
    | _ => false

/-- Take an asynchronous cause (R91, R93, R180, R299, R315): its notice leaves its queue, and the PEND bit is set again while
another waits. -/
def Ctl.takeAsync (c : Ctl) (ck k : Nat) : Ctl :=
  match k with
  | 16 => c.trap true 16 c.pc (BitVec.ofNat 64 c.stallDie)
  | 17 =>
    let (sect, kind) := c.seals.headD (0, 0)
    let n := { c.trap true 17 c.pc (BitVec.ofNat 64 (sect * 256 + kind)) with seals := c.seals.tail }
    if c.seals.tail.isEmpty then n else n.setPend ck 17
  | _ =>
    let n := { c.trap true 18 c.pc (c.trapos.headD 0) with trapos := c.trapos.tail }
    if c.trapos.tail.isEmpty then n else n.setPend ck 18

/-- Whether the word at the pc has an uncorrectable ECC error (R61). -/
def State.fetchEcc (s : State) (c : Ctl) : Bool := s.eccHit (coreKey c.core c.pc.toNat) 4

/-- Whether the word at the pc cannot be fetched (R61). -/
def State.fetchFaults (s : State) (c : Ctl) : Bool := !c.executable c.pc.toNat || s.fetchEcc c

/-- INSTRUCTION_FETCH_FAULT (R61): cause 2 outside an executable page, else cause 1 for an uncorrectable ECC error. Only a core that runs and
stands between instructions fetches (R85, R93). -/
def execInstructionFetchFault (core : Nat) (s : State) : Host.Outcome State Fault Refusal :=
  let c := s.ctl core
  if s.waitGoes c = false ∨ c.wait ≠ .none then finish s s
  else if c.executable c.pc.toNat = false then trapAt s c 2 c.pc
  else if s.fetchEcc c then trapAt s c 1 c.pc
  else finish s s

/-- The comparator that matches the pc (R305, R316). -/
def Ctl.comparator (c : Ctl) : Option Nat :=
  (List.range 4).find? fun i => match c.cmps[i]? with
    | some (en, wa) => en && c.pc == BitVec.ofNat 64 (4 * wa)
    | none => false

/-- The comparator that stands before the instruction at the pc: one that matches and has not stopped it already (R305). -/
def Ctl.comparatorDue (c : Ctl) : Option Nat := if c.brkPassed then none else c.comparator

/-- Whether a synchronous cause stands at an instruction boundary of a control core: it wins over every asynchronous one (R93). -/
def State.syncFirst (s : State) (c : Ctl) : Bool := c.wait == .none && (c.comparatorDue.isSome || s.fetchFaults c)

/-- ASYNC_TRAP_ENTRY (R93). -/
def execAsyncTrapEntry (core : Nat) (s : State) : Host.Outcome State Fault Refusal :=
  let c := s.ctl core
  match c.asyncCode with
  | some k => if c.asyncDue && !s.syncFirst c && !s.ctlHeld c then finish s (s.setCtl (c.takeAsync s.ck k)) else finish s s
  | none => finish s s

/-- An address comparator fires before its instruction executes (R91, R305): cause 10, or a stop under the debugger. -/
def State.breakAt (s : State) (c : Ctl) (i : Nat) : State :=
  if s.debugged c then s.stopCtl c 2 0 else s.syncTrap c 10 c.pc (BitVec.ofNat 64 i)

end Sys2Proof.Machine
end

