-- ==== Sys2Proof/Machine/Commands.lean ====
section
/-! DEFINITION. Object-record commands (R236 to R241), their performance at the hub (R208 to R210, R238, R274), and LNCH on
the control core (R278, R279). -/

namespace Sys2Proof.Machine

/-! ### Records as bits (R199) -/

/-- Read a record from its 1,024 bits. -/
def ObjRec.ofBits (w : BitVec 1024) : ObjRec :=
  let g (lo n : Nat) : Nat := (w.extractLsb' lo n).toNat
  { stride := (List.range 6).map fun i => g (448 + 40 * i) 40, shape := (List.range 6).map fun i => g (256 + 32 * i) 32,
    shadow := g 192 48, base := g 128 48, owner := g 72 18, ctx := g 64 8, igen := g 48 16, gen := g 32 16, kind := g 24 3,
    gsz := g 22 2, had := w.getLsbD 21, sat := w.getLsbD 20, rm := g 17 3, perm := w.extractLsb' 13 4, layout := g 11 2,
    rank := g 8 3, fmt := g 4 4, ppend := w.getLsbD 3, st := g 0 3 }

/-- Whether a run of bytes lies in one memory of this device and clear of the overflow drawers (R195, R198). -/
def placeable (a n : Nat) : Bool :=
  assigned a n && match bankOf a with
    | some (.quad q) => decide (a + n ≤ 0x800300000000 + q * 2^20 + 0xC0000)
    | some _ => true
    | none => false

/-- Whether an address lies in a quad, cluster or die bank (R171, R211). -/
def inOnDieBank (a : Nat) : Bool :=
  match bankOf a with
  | some (.quad _) | some (.cluster _) | some (.die _) => true
  | _ => false

/-- Whether a number is a power of two from 2 to 256. -/
def ringCount (n : Nat) : Bool := [2, 4, 8, 16, 32, 64, 128, 256].contains n

/-- The indexes of a record's rejected fields; of the reserved bits the table has only [1023:688] rejected, and the others are read-only and
read 0 (R53, R195, R198, R199, R211, R237, R253, R337). A stride of a tiled or plane-form object that is not 0 is rejected at LAYOUT's index, 11
(R203; log 93). -/
def recordFaults (dev : Nat) (w : BitVec 1024) : List Nat :=
  let r := ObjRec.ofBits w
  let g (lo n : Nat) : Nat := (w.extractLsb' lo n).toNat
  let bad (b : Bool) (i : Nat) : List Nat := if b then [i] else []
  let rankOk := decide (1 ≤ r.rank ∧ r.rank ≤ 6)
  let proxy := r.owner != dev
  let mapped := if r.st = 2 ∧ r.kind = 0 then 8 * r.blocks else r.footprint
  bad (g 688 336 != 0) 688 ++ bad (decide (4 ≤ r.kind)) 24 ++ bad (decide (5 ≤ r.rm)) 17 ++ bad (r.layout == 3) 11 ++ bad (!rankOk) 8
    ++ bad (r.st != 1 && r.st != 2) 0 ++ bad (decide (14 ≤ r.fmt)) 4
    ++ ((List.range 6).flatMap fun i => bad (decide (i < r.rank) && r.shape.getD i 0 == 0 && !(r.kind == 2 && i == 1)) (256 + 32 * i))
    ++ bad ((r.gsz == 0) == (r.fmt == 10 || r.fmt == 11)) 4
    ++ bad (dim r.shape 1 % r.group != 0) 22 ++ bad (r.had && dim r.shape 1 % 32 != 0) 21
    ++ bad (r.st == 2 && r.layout == 0 && decide (1 < r.rank)) 0
    ++ bad ((r.layout == 1 || r.layout == 2) && (dim r.stride 1 != 0 || (decide (1 < r.rank) && dim r.stride 2 != 0))) 11
    ++ (if proxy then
          bad (r.base % 2^24 == 0 || r.base / 2^24 != 0) 128 ++ bad (r.st != 1) 0 ++ bad (!r.perm.getLsbD 3) 13 ++ bad (r.kind != 0) 24
        else
          bad (r.base % 64 != 0 || !placeable r.base mapped) 128
            ++ bad (r.shadow != 0 && !placeable r.shadow r.footprint) 192)
    ++ (match r.kind with
        | 1 => bad (dim r.shape 1 % 64 != 0 || dim r.shape 1 < 64 || 4096 < dim r.shape 1) 256 ++ bad (!ringCount (dim r.shape 2)) 288
                ++ bad (!inOnDieBank r.base) 128
        | 2 => bad (r.rank != 2) 8 ++ bad (dim r.shape 1 == 0) 256 ++ bad (!inOnDieBank r.base) 128
        | 3 => bad (r.rank != 2) 8 ++ bad (dim r.shape 1 == 0 || 64 < dim r.shape 1) 256
                ++ bad (dim r.shape 2 == 0 || 65536 < dim r.shape 2) 288 ++ bad (r.layout != 0) 11 ++ bad (r.fmt != 0) 4
                ++ bad (r.gsz != 0) 22 ++ bad r.had 21 ++ bad r.sat 20 ++ bad (r.rm != 0) 17
                ++ (List.range 6).flatMap fun i => bad (r.stride.getD i 0 != 0) (448 + 40 * i)
        | _ => [])

/-- The further faults of a barrier record for the context that installs it (R171, R237). -/
def barrierFaults (ctx : Nat) (groups : List (Nat × BitVec 384)) (r : ObjRec) : List Nat :=
  if r.kind = 2 then
    (if r.ctx = ctx then [] else [64]) ++ (if groups.any fun g => g.1 == dim r.shape 2 then [] else [288])
  else []

/-- Install a record in an invalid handle (R238): GEN and IGEN, and the contents of a ring, barrier or counter array. -/
def State.install (s : State) (h : Nat) (r : ObjRec) : State :=
  let g := (((s.obj? h).map (·.gen)).getD 0 + 1) % 65536
  let s := s.setObj h { r with gen := g, igen := g }
  if r.owner ≠ s.devId then s
  else match r.kind with
    | 1 =>
      let n := dim r.shape 2
      (s.write r.base (List.replicate 64 0)).write (r.base + 64 + n * dim r.shape 1) (List.replicate (8 * n) 0)
    | 2 => s.write r.base (leBytes 16 (dim r.shape 2 % 256 * 2^96 + dim r.shape 1 * 2^32))
    | 3 => s.write r.base (List.replicate (8 * (dim r.shape 1 * dim r.shape 2)) 0)
    | _ => s

/-! ### Counters that the HN7 posts itself (R236, R254) -/

/-- Whether a counter word names no counter, or a counter array of a context with its index in range (R236, R237 reason 6). -/
def State.counterWordOk (s : State) (ctx : Nat) (w : Word) : Bool :=
  let h := handleOf w
  (w.extractLsb' 48 16).toNat == 0 && (h == 0 || match s.obj? h with
    | some r => r.st != 0 && r.kind == 3 && (r.ctx == 255 || r.ctx == ctx)
        && decide ((w.extractLsb' 24 24).toNat < dim r.shape 1 * dim r.shape 2)
    | none => false)

/-- A counter add (R254), at the counter's places during a relocation (R208): none when the sum would leave 64 bits. -/
def State.addCounter (s : State) (h : Nat) (r : ObjRec) (i v : Nat) : Option (State × Nat) :=
  let old := s.readNat (s.readPlace h r.gen (r.base + 8 * i)) 8
  if old + v < 2^64 then some (s.writeObj h r.gen (r.base + 8 * i) (leBytes 8 (old + v)), old) else none

/-- Post a counter: add 1 at its element, as CNADD does; an overflow leaves it and is recorded with what posted (R236, R254). A word
that names no counter's element posts nothing. -/
def State.postCounter (s : State) (by_ : Poster) (w : Word) : State :=
  let h := handleOf w
  let i := (w.extractLsb' 24 24).toNat
  if h = 0 then s
  else match s.obj? h with
    | some r =>
      if r.st = 0 ∨ r.kind ≠ 3 ∨ dim r.shape 1 * dim r.shape 2 ≤ i then s
      else match s.addCounter h r i 1 with
        | some (t, _) => t
        | none => s.record (.counterOverflow h i by_)
    | none => s

/-! ### The four commands -/

/-- The check of a command block (R236): alignment, then every byte it reads, then the status word it writes. -/
def Ctl.blockCheck (c : Ctl) (a : Word) (n : Nat) : Option (Nat × Word) :=
  match c.accessCheck false a n 64 with
  | some q => some q
  | none => c.accessCheck true a 8 8

/-- End a command: write its status word and complete (R237). -/
def commandDone (s t : State) (c : Ctl) (a : Word) (status : Word) : Host.Outcome State Fault Refusal :=
  let r := t.ctlWrite c a (leBytes 8 status.toNat)
  completeIn s r.1 c r.2

/-- The checks that every command makes first (R237 reasons 1 and 2): a handle in range, whose page is present. -/
def State.handleReject (s : State) (w : Word) : Option (Nat × Nat) :=
  if (w.extractLsb' 24 40).toNat ≠ 0 ∨ handleOf w = 0 ∨ s.msys.objCount ≤ handleOf w then some (1, 0)
  else if s.msys.absentPages.contains (handleOf w / 32) then some (2, 0)
  else none

/-- The mould of the commands (R92, R236, R237): privilege, the block, then the checks; `run` gives the rejection, or the
machine after acceptance and what the instruction waits for, if it is not to complete yet. -/
def commandWait (a b : Reg) (size : State → Ctl → Word → Nat)
    (run : State → Ctl → Nat → Word → Nat → (Nat × Nat) ⊕ (State × Option Wait)) (s : State) : Host.Outcome State Fault Refusal :=
  let c := s.running
  if c.priv = false then trapAt s c 3 ((s.fetchWord c.core c.pc).zeroExtend 64)
  else
    let x := c.reg b
    match c.blockCheck x 64 with
    | some (k, v) => trapAt s c k v
    | none =>
      let n := size s c x
      match c.blockCheck x n, s.ctlPoison c x n with
      | some (k, v), _ => trapAt s c k v
      | none, some v => trapAt s c 7 v
      | none, none =>
        match s.handleReject (c.reg a) with
        | some (r, i) => commandDone s s c x (statusWord r i)
        | none =>
          let ctx := c.owner.getD 255
          match run s c (handleOf (c.reg a)) x ctx with
          | .inl (r, i) => commandDone s s c x (statusWord r i)
          | .inr (t, none) => commandDone s t c x 0
          | .inr (t, some w) => finish s (t.setCtl { c with wait := w })

/-- The mould of a command that completes as it is accepted. -/
def commandWith (a b : Reg) (size : State → Ctl → Word → Nat) (run : State → Ctl → Nat → Word → Nat → (Nat × Nat) ⊕ State) (s : State) :
    Host.Outcome State Fault Refusal :=
  commandWait a b size (fun s c h x ctx => match run s c h x ctx with
    | .inl q => .inl q
    | .inr t => .inr (t, none)) s

/-- The counter word of a command block. -/
def State.cmdCounter (s : State) (c : Ctl) (x : Word) : Word := leWord (s.ctlRead c (x + 8) 8)

/-- Whether commands wait for an object at its hub (R238). -/
def State.hubBusy (s : State) (h : Nat) : Bool := s.msys.hub.any fun q => q.handle == h

/-- Queue a command at an object's hub (R208, R238). -/
def State.queueHub (s : State) (h : Nat) (op : HubOp) (counter : Word) (ctx : Nat) : State :=
  s.modMsys fun m => { m with hub := m.hub ++ [{
    handle := h, op := op, counter := counter, ctx := ctx, fid := none, performed := false, oldGen := 0, readers := [] }] }

/-- STATE of a handle's record now (R237 reason 4). -/
def State.stateNow (s : State) (h : Nat) : Nat := ((s.obj? h).map (·.st)).getD 0

/-- Perform an ORSET (R238). -/
def State.performSet (s : State) (h : Nat) (n : ObjRec) : State :=
  let r := (s.obj? h).getD ObjRec.reset
  if r.st = 0 then s.install h n else s.setObj h { r with perm := n.perm, ppend := n.ppend, rm := n.rm, sat := n.sat }

/-- Whether an update changes only PERM, PPEND, RM and SAT; GEN and IGEN are ignored (R238). -/
def ObjRec.updates (old new : ObjRec) : Bool :=
  { new with perm := old.perm, ppend := old.ppend, rm := old.rm, sat := old.sat, gen := old.gen, igen := old.igen } == old

/-- ORSET (R238). -/
def execOrset (a : Reg) (b : Reg) (s : State) : Host.Outcome State Fault Refusal :=
  commandWith a b (fun _ _ _ => 192) (fun s c h x ctx =>
    let w := BitVec.ofNat 1024 (leNat (s.ctlRead c (x + 64) 128))
    let n := ObjRec.ofBits w
    let groups := ((s.ctx? ctx).map (·.groups)).getD []
    let p := s.projected h
    match (recordFaults s.devId w ++ barrierFaults ctx groups n).min? with
    | some i => .inl (3, i)
    | none =>
      if p.st ≠ 0 ∧ ((p.st ≠ 1 ∧ p.st ≠ 2) ∨ p.updates n = false) then .inl (4, s.stateNow h)
      else if s.counterWordOk ctx (s.cmdCounter c x) = false then .inl (6, 0)
      else if s.hubBusy h then .inr (s.queueHub h (.orset n) (s.cmdCounter c x) ctx)
      else .inr ((s.performSet h n).postCounter (.command h) (s.cmdCounter c x))) s

/-- ORINV (R209, R238). -/
def execOrinv (a : Reg) (b : Reg) (s : State) : Host.Outcome State Fault Refusal :=
  commandWith a b (fun _ _ _ => 64) (fun s c h x ctx =>
    let p := s.projected h
    if p.st = 0 then .inl (4, s.stateNow h)
    else if s.counterWordOk ctx (s.cmdCounter c x) = false then .inl (6, 0)
    else .inr (s.queueHub h .orinv (s.cmdCounter c x) ctx)) s

/-- ORMOV (R208, R239). -/
def execOrmov (a : Reg) (b : Reg) (s : State) : Host.Outcome State Fault Refusal :=
  commandWith a b (fun _ _ _ => 64) (fun s c h x ctx =>
    let p := s.projected h
    let dst := leNat (s.ctlRead c (x + 16) 8)
    let n := p.footprint
    if p.st ≠ 1 ∨ p.owner ≠ s.devId then .inl (4, s.stateNow h)
    else if dst % 512 ≠ 0 ∨ assigned dst n = false ∨ overlap dst n p.base n = true then .inl (5, 0)
    else if s.counterWordOk ctx (s.cmdCounter c x) = false then .inl (6, 0)
    else .inr (s.queueHub h (.ormov dst) (s.cmdCounter c x) ctx)) s

/-- Whether a residency entry is accepted (R205, R241). -/
def entryRejected (dev : Nat) (r : ObjRec) (e : Word) : Bool :=
  let rk := (e.extractLsb' 62 2).toNat
  let addr := (e.extractLsb' 0 48).toNat
  (e.extractLsb' 48 14).toNat != 0 || (rk == 1 && (addr % 512 != 0 || !assigned addr r.blockLen))
    || (rk == 2 && (e.extractLsb' 0 18).toNat == dev)

/-- A packet from this device's hub. -/
def State.hubPacket (s : State) (dev cls ctx : Nat) (b : PacketBody) : State :=
  s.sendPacket 0 ctx dev cls false b

/-- The id of a ticket (R341). -/
def Ticket.id (t : Ticket) : Nat := t.hub * 4096 + t.idx

/-- Send REPLAY to the requesters of the open tickets of blocks that have become present (R341). -/
def State.sendReplays (s : State) (h : Nat) (blocks : List Nat) : State :=
  (s.msys.tickets.filter fun t => t.handle == h && blocks.contains t.block).foldl (fun s t =>
    s.hubPacket t.dev 1 t.ctx (.answer t.core 0 (.replay t.id))) s

/-- Whether a residency entry says that its block is present (R205). -/
def entryPresent (e : Word) : Bool := (e.extractLsb' 62 2).toNat == 1

/-- Write residency entries of a sparse object in ascending order; a block that was not present and now is has become present (R241,
R341). -/
def State.writeResidency (s : State) (h : Nat) (r : ObjRec) (b : Nat) (es : List Word) : State :=
  let came := es.zipIdx.filter fun q => entryPresent q.1 && !entryPresent (s.readWord (r.base + 8 * (b + q.2)))
  (s.write (r.base + 8 * b) (es.flatMap fun e => leBytes 8 e.toNat)).sendReplays h (came.map fun q => b + q.2)

/-- The access of a Chest entry: its firing's, or that of its side of a copy. -/
def State.accessOf (s : State) (e : Chest) : Option Access :=
  if e.eng = 3 then ((s.ctx? e.ctx).bind fun x => x.copies[e.arg.toNat]?).bind fun c => if e.kind = 16 then c.src else c.dst
  else (s.firing? e.fid).bind fun f => f.job.access?

/-- The blocks whose residency entries an access has read: those of the elements that memory has performed, those for which another
device is asked, and those that it has answered (R206, R241). -/
def State.blocksRead (s : State) (e : Chest) : List Nat :=
  let performed := (s.accessOf e).elim [] fun t =>
    let n := if e.done then t.cells.length else max e.cell (e.row * t.cols)
    (((t.cells.take n).filterMap fun c => t.cell c.1 c.2) ++ e.got.map (·.x)).map fun x => (t.obj.blockOf x).1
  performed ++ ((s.partOf e).map (·.blocks)).getD []

/-- The accesses that have read one of n residency entries of an object from entry b on and are not complete (R241): core, context and order
of their Chest entries. -/
def State.mapReaders (s : State) (h b n : Nat) : List (Nat × Nat × Nat) :=
  (s.msys.chest.filter fun e => e.handle == h && e.st == 0 && (s.blocksRead e).any fun k => decide (b ≤ k ∧ k < b + n)).map fun e =>
    (e.core, e.ctx, e.order)

/-- Whether one of some accesses is still outstanding. -/
def State.anyOut (s : State) (rs : List (Nat × Nat × Nat)) : Bool :=
  rs.any fun q => match s.chest? q.1 q.2.1 q.2.2 with
    | some e => e.st == 0
    | none => false

/-- The entries of an ORRES are written; its counter is posted at once, or after the accesses that read a replaced entry: then the
command stays at the hub, at the head of its object's queue (R241). -/
def State.performRes (s : State) (q : HubCmd) (first : Nat) (es : List Word) (n : Option Nat) : State :=
  let rs := s.mapReaders q.handle first es.length
  let t := s.writeResidency q.handle ((s.obj? q.handle).getD ObjRec.reset) first es
  let stays := { q with performed := true, readers := rs }
  t.modMsys fun m => { m with hub := match n with
    | some i => if rs.isEmpty then m.hub.eraseIdx i else m.hub.set i stays
    | none => if rs.isEmpty then m.hub else m.hub ++ [stays] }

/-- The counter of an ORRES that no access holds up is posted. -/
def State.postRes (s t : State) (q : HubCmd) (first n : Nat) : State :=
  if (s.mapReaders q.handle first n).isEmpty then t.postCounter (.command q.handle) q.counter else t

/-- ORRES (R241). One that must wait for other commands of its object joins the queue at the hub, and completes once it is performed
there (R238). -/
def execOrres (a : Reg) (b : Reg) (s : State) : Host.Outcome State Fault Refusal :=
  commandWait a b (fun s c x =>
      let n := leNat (s.ctlRead c (x + 24) 8)
      if 1 ≤ n ∧ n ≤ 64 then 64 + 8 * n else 64) (fun s c h x ctx =>
    let p := s.projected h
    let first := leNat (s.ctlRead c (x + 16) 8)
    let n := leNat (s.ctlRead c (x + 24) 8)
    if p.st ≠ 2 ∨ p.owner ≠ s.devId then .inl (4, s.stateNow h)
    else if n < 1 ∨ 64 < n ∨ p.blocks < first + n then .inl (5, 0)
    else
      let es := (List.range n).map fun i => leWord (s.ctlRead c (x + BitVec.ofNat 64 (64 + 8 * i)) 8)
      match es.zipIdx.find? fun q => entryRejected s.devId p q.1 with
      | some q => .inl (5, q.2)
      | none =>
        if s.counterWordOk ctx (s.cmdCounter c x) = false then .inl (6, 0)
        else
          let q : HubCmd := { handle := h, op := .orres c.core first es s.nextId, counter := s.cmdCounter c x, ctx := ctx, fid := none,
                              performed := false, oldGen := 0, readers := [] }
          if s.hubBusy h then .inr ({ s with nextId := s.nextId + 1 }.modMsys fun m => { m with hub := m.hub ++ [q] }, some (.orres h x s.nextId))
          else .inr (s.postRes (s.performRes q first es none) q first n, none)) s

/-! ### At the hub -/

/-- The command at place n of the hub queues, if every earlier command of its object has posted its counter (R208, R238). -/
def State.hubHead? (s : State) (n : Nat) : Option HubCmd :=
  match s.msys.hub[n]? with
  | some q => if (s.msys.hub.take n).any fun e => e.handle == q.handle then none else some q
  | none => none

/-- Replace or remove the command at place n. -/
def State.setHub (s : State) (n : Nat) (q : Option HubCmd) : State :=
  s.modMsys fun m => { m with hub := match q with
    | some q => m.hub.set n q
    | none => m.hub.eraseIdx n }

/-- The Chest entry of a firing, also one that the save of its context has taken from the core (R291). -/
def State.entryOf (s : State) (f : Firing) (order : Nat) : Option Chest :=
  (s.chest? f.core f.ctx order).or
    (((s.cctx? f.core f.ctx).bind (·.part)).bind fun p => p.chest.find? fun e => e.order == order)

/-- Record the result of a hub command for its firing's Chest entry (R274, R288); an entry that is saved finds it in the recent-tag
table when it is issued again. -/
def State.hubResult (s : State) (fid : Option Nat) (bank : Nat) (w : Word) : State :=
  match fid.bind s.firing? with
  | some f =>
    match f.order with
    | some o =>
      let tag := ((s.entryOf f o).map (·.dedup)).getD 0
      (s.modChest f.core f.ctx o fun e => { e with done := true, result := w }).modMsys fun m => { m with
        tags := m.tags ++ [{ bank := bank, dev := none, tag := tag, result := w, ok := true, flags := 0 }] }
    | none => s
  | none => s

/-- The bank of an address as a key of its recent-tag table. -/
def bankKey (a : Nat) : Nat := ((bankOf a).map Bank.code).getD 0

/-- The control core that waits for the ORRES of number `ask` at the hub; none once it has abandoned the instruction, whose execution again
is another (R93, R238). -/
def State.resWaiter (s : State) (q : HubCmd) (core ask : Nat) : Option (Ctl × Word) :=
  let c := s.ctl core
  match c.wait with
  | .orres h x k => if h = q.handle ∧ c.owner = some q.ctx ∧ k = ask then some (c, x) else none
  | _ => none

/-- A queued ORRES is performed, and its instruction completes with status 0 (R237, R238), unless `dolz` holds its context (R193). One whose
instruction was abandoned has no effect (R93). -/
def State.performQueuedRes (s : State) (n : Nat) (q : HubCmd) (core first : Nat) (es : List Word) (ask : Nat) :
    Host.Outcome State Fault Refusal :=
  match s.resWaiter q core ask with
  | none => finish s (s.setHub n none)
  | some (c, x) => if s.held q.ctx then finish s s else commandDone s (s.postRes (s.performRes q first es (some n)) q first es.length) c x 0

/-- Whether a recent-tag table has room (R288). -/
def State.tagRoom (s : State) (bank : Nat) : Bool := decide ((s.msys.tags.filter fun t => t.bank == bank).length < 4096)

/-- Whether a command's result must wait for room in the recent-tag table of its object's memory (R274, R288). -/
def State.resultWaits (s : State) (q : HubCmd) (r : ObjRec) : Bool := (q.fid.bind s.firing?).isSome && !s.tagRoom (bankKey r.base)

/-- HUB_COMMAND_PERFORM (R208 to R210, R238, R241, R274): the command at place n. -/
def execHubCommandPerform (n : Nat) (s : State) : Host.Outcome State Fault Refusal :=
  match s.hubHead? n with
  | none => finish s s
  | some q =>
    if q.performed then finish s s
    else
      let r := (s.obj? q.handle).getD ObjRec.reset
      let drained := s.inflightOf q.handle r.gen = 0
      match q.op with
      | .orset rec_ => finish s (((s.performSet q.handle rec_).postCounter (.command q.handle) q.counter).setHub n none)
      | .orres core first es ask => s.performQueuedRes n q core first es ask
      | .orinv =>
        let t := s.setObj q.handle (HubOp.orinv.project r)
        finish s (if drained then (t.postCounter (.command q.handle) q.counter).setHub n none
                  else t.setHub n (some { q with performed := true, oldGen := r.gen }))
      | .ormov dst =>
        let bank := bankKey r.base
        if 64 ≤ (s.msys.relocs.filter fun m => bankKey m.oldBase == bank).length then finish s s
        else
          let unit := if r.layout = 0 then 4096 else r.blockBytes
          let m : Reloc := { handle := q.handle, gen := r.gen, oldBase := r.base, newBase := dst, unit := unit,
                             units := (r.footprint + unit - 1) / unit, bytes := r.footprint, next := 0, flipped := false }
          let t := (s.setObj q.handle { r with st := 3, shadow := dst }).modMsys fun y => { y with relocs := y.relocs ++ [m] }
          finish s (t.setHub n (some { q with performed := true, oldGen := r.gen }))
      | .shop =>
        if s.resultWaits q r then finish s s else
        let t := s.setObj q.handle { r with st := 4 }
        finish s ((t.hubResult q.fid (bankKey r.base) (BitVec.ofNat 64 r.gen)).setHub n none)
      | .publ =>
        if s.resultWaits q r then finish s s else
        let r' := HubOp.publ.project r
        let t := (s.setObj q.handle r').hubResult q.fid (bankKey r.base) (BitVec.ofNat 64 r'.gen)
        finish s (if drained then t.setHub n none else t.setHub n (some { q with performed := true, oldGen := r.gen }))

/-- RELOCATION_UNIT_COPY (R208 step 2). -/
def execRelocationUnitCopy (handle : Nat) (s : State) : Host.Outcome State Fault Refusal :=
  match s.msys.relocs.find? fun m => m.handle == handle && !m.flipped && decide (m.next < m.units) with
  | none => finish s s
  | some m =>
    let o := m.next * m.unit
    let bs := s.read (m.oldBase + o) (min m.unit (m.bytes - o))
    let t := (s.write (m.newBase + o) bs).modMsys fun y => { y with
      relocs := modify (fun q => q.handle == handle && q.gen == m.gen) (fun q => { q with next := q.next + 1 }) y.relocs }
    finish s t

/-- RELOCATION_FLIP (R208 step 6): one record update. -/
def execRelocationFlip (handle : Nat) (s : State) : Host.Outcome State Fault Refusal :=
  match s.msys.relocs.find? (fun m => m.handle == handle && !m.flipped && decide (m.units ≤ m.next)), s.obj? handle with
  | some m, some r =>
    let t := (s.setObj handle { r with base := r.shadow, gen := (r.gen + 1) % 65536, st := 1 }).modMsys fun y => { y with
      relocs := modify (fun q => q.handle == handle && q.gen == m.gen) (fun q => { q with flipped := true }) y.relocs }
    finish s t
  | _, _ => finish s s

/-- Whether the accesses that a performed command waits for have completed: those of the old generation (R208, R209, R274), or those
that read a replaced residency entry (R241). -/
def State.hubDrained (s : State) (q : HubCmd) : Bool :=
  match q.op with
  | .orres _ _ _ _ => !s.anyOut q.readers
  | .ormov _ => (s.msys.relocs.any fun m => m.handle == q.handle && m.gen == q.oldGen && m.flipped) && s.inflightOf q.handle q.oldGen == 0
  | _ => s.inflightOf q.handle q.oldGen == 0

/-- GENERATION_DRAIN_POST (R208 step 8, R209, R241, R274): the accesses that the command at place n waits for have completed. -/
def execGenerationDrainPost (n : Nat) (s : State) : Host.Outcome State Fault Refusal :=
  match s.msys.hub[n]? with
  | none => finish s s
  | some q =>
    if q.performed = false ∨ s.hubDrained q = false then finish s s
    else
      let done (m : Reloc) : Bool := m.handle == q.handle && m.gen == q.oldGen && m.flipped
      let t := s.modMsys fun y => { y with relocs := y.relocs.filter fun m => !done m }
      let t := match q.fid.bind t.firing? with
        | some f => if f.phase == Phase.ready then t.modFiring f.id fun g => { g with job := .none } else t
        | none => t
      finish s ((t.postCounter (.command q.handle) q.counter).setHub n none)

/-! ### LNCH on the control core -/

/-- The launch record a context's LNCH names, as a request for the scheduler: CORES and priority are capped (R278). -/
def State.childLaunch (s : State) (ctx : Nat) (places : List Nat) : LaunchReq :=
  { places := places, parent := some ctx, ended := false, partMask := ((s.ctx? ctx).map (·.part)).getD 0, cap := ((s.ctx? ctx).map (·.prio)).getD 0,
    queue := none }

/-- Whether a context's device launch queue has room (R278). -/
def State.launchRoom (s : State) (ctx : Nat) : Bool := decide ((s.host.ctxLaunches.filter fun q => q.1 == ctx && !q.2.ended).length < 16)

/-- Put a record into a context's device launch queue. -/
def State.queueLaunch (s : State) (ctx : Nat) (places : List Nat) : State :=
  s.modHost fun h => { h with ctxLaunches := h.ctxLaunches ++ [(ctx, s.childLaunch ctx places)] }

/-- The launch id that an accepted LNCH returns in gd[63:32] (R279). -/
def State.launchId (s : State) (places : List Nat) : Word := s.readWord (places.headD 0 + 8)

/-- LNCH (R279). -/
def execLnch (d : Reg) (a : Reg) (s : State) : Host.Outcome State Fault Refusal :=
  let c := s.running
  match c.owner with
  | none => complete s c (c.setReg d (statusWord 1 0))
  | some ctx =>
    let w := c.reg a
    match s.launchRecord ctx (handleOf w) (w.extractLsb' 24 40).toNat with
    | .rejected r => complete s c (c.setReg d (statusWord r 0))
    | .unreadable _ => complete s c (c.setReg d (statusWord 1 0))
    | .at ps =>
      if s.launchRoom ctx then completeIn s (s.queueLaunch ctx ps) c (c.setReg d (s.launchId ps <<< 32))
      else waitFor s c (.launch d ps)

/-- LNCH_ACCEPT (R278). -/
def execLnchAccept (core : Nat) (s : State) : Host.Outcome State Fault Refusal :=
  let c := s.ctl core
  match c.wait, c.owner with
  | .launch d ps, some ctx =>
    if s.waitGoes c && s.launchRoom ctx then
      completeIn s (s.queueLaunch ctx ps) c (c.setReg d (s.launchId ps <<< 32))
    else finish s s
  | _, _ => finish s s

end Sys2Proof.Machine
end

