-- ==== Sys2Proof/Machine/Matrix.lean ====
section
/-! DEFINITION. The matrix island (R118 to R126, R309, R310). An MMA-family firing applies its k-groups when it sends, or up
to a group boundary when it halts: M runs one firing at a time, so no other reader sees the difference (R118). -/

namespace Sys2Proof.Machine

/-- The accumulator set of an index. -/
def CoreCtx.acc (x : CoreCtx) (i : Nat) : AccSet := x.accs.getD i AccSet.reset

/-- Replace an accumulator set. -/
def CoreCtx.setAcc (x : CoreCtx) (i : Nat) (a : AccSet) : CoreCtx := { x with accs := x.accs.set i a }

/-- A firing of an accumulator operator (R116, R121). -/
def mPlan (s : State) (f : Firing) (fault : Option Nat) (ts : List Token) (cost occ extra : Nat)
    (run : State → Nat → BitVec 32 → Effect) : Plan :=
  match fault with
  | some k => Plan.faults k
  | none =>
    if s.anyEcc f.core (ts.filter fun t => !t.isPoison) then Plan.faults 17
    else
      { cost := cost, occ := occ, extra := extra, effect := run }

/-- The dense real or imaginary part of a tile, as rows of values. -/
def partRows (t : Tile) (im : Bool) : List (List Val) :=
  let n := t.rows * t.cols
  rowsOf t.rows t.cols (if im then t.vals.drop n else t.vals.take n)

/-- The dot-product terms of a row and a column, with the sign of each product (R47). -/
def dotTerms (neg : Bool) (xs ys : List Val) : List (Val × Bool) :=
  List.zipWith (fun x y => let p := exactProduct [x, y]; (if neg then p.1.neg else p.1, p.2)) xs ys

/-- Two term lists taken alternately, so that each k keeps its two products together (R49). -/
def interleave {α : Type} : List α → List α → List α
  | [], ys => ys
  | x :: xs, ys => match ys with
    | [] => x :: xs
    | y :: ys => x :: y :: interleave xs ys

/-- Apply k-groups lo to hi - 1 of an MMA-family product to the sets (R122 to R124): `op` is the opcode. -/
def applyMma (accs : List AccSet) (set op r c lo hi : Nat) (a b : Tile) : List AccSet × Flags :=
  let tr := decide (op = 3 ∨ op = 4)
  let win {α : Type} (per : Nat) (l : List α) : List α := (l.drop (per * lo)).take (per * (hi - lo))
  let rowsA (im : Bool) : Array (List Val) := (if tr then transposeRows a.cols (partRows a im) else partRows a im).toArray
  let colsB (im : Bool) : Array (List Val) := (transposeRows b.cols (partRows b im)).toArray
  let acc (i : Nat) : AccSet := accs.getD i AccSet.reset
  if op = 5 ∨ op = 6 then
    let ar := rowsA false
    let ai := rowsA true
    let br := colsB false
    let bi := colsB true
    let (re, f1) := accumulate r c (acc set) 64 fun i j =>
      win 64 (interleave (dotTerms false (ar.getD i []) (br.getD j [])) (dotTerms true (ai.getD i []) (bi.getD j [])))
    let (im, f2) := accumulate r c (acc (set ^^^ 1)) 64 fun i j =>
      win 64 (interleave (dotTerms false (ar.getD i []) (bi.getD j [])) (dotTerms false (ai.getD i []) (br.getD j [])))
    ((accs.set set re).set (set ^^^ 1) im, f1.or f2)
  else if op = 7 ∨ op = 8 then
    let ar := rowsA false
    let ws := (partRows b false).toArray
    let sc := (acc set).scales.toArray
    let (x, fl) := accumulate r c (acc set) 32 fun i j =>
      win 32 ((List.zipWith (fun p q => (p, q)) (ar.getD i []) (ws.getD j [])).zipIdx.map fun (pq, k) =>
        exactProduct [accVal ((sc.getD j []).getD (k / 32) xfOne), pq.1, pq.2])
    (accs.set set x, fl)
  else
    let ar := rowsA false
    let br := colsB false
    let (x, fl) := accumulate r c (acc set) 32 fun i j => win 32 (dotTerms false (ar.getD i []) (br.getD j []))
    (accs.set set x, fl)

/-- Rows 0 to r-1 and columns 0 to c-1 of a set as values. -/
def AccSet.region (a : AccSet) (r c : Nat) : List Val := (a.rows.take r).flatMap fun row => (row.take c).map accVal

/-- The shape of an MMA-family firing: rows, depth and columns of the product, from its opcode and operands (R122 to R124). -/
def mmaDims (op : Nat) (a b : Desc) : Nat × Nat × Nat :=
  let (r, k) := if op = 3 ∨ op = 4 then (a.cols, a.rows) else (a.rows, a.cols)
  (r, k, if op = 7 ∨ op = 8 then b.rows else b.cols)

/-- The MMA family (R122 to R124): `op` is the opcode, by which the forms differ. A firing that sends poison, because an operand
is poison or a mark it sends was set, does no arithmetic (R126); a complex product sends poison if either of its sets is marked
(log 57). -/
def mmaPlan (op : Nat) (o : OpFields) (s : State) (f : Firing) (sl : Slot) (_ : CoreCtx) (_ : Ctx) : Plan :=
  let a := operand f sl [0, 1] o.srcA
  let b := operand f sl [0, 1] o.srcB
  let cplx := decide (op = 5 ∨ op = 6)
  let half := decide (op = 7 ∨ op = 8)
  let zero := decide (op % 2 = 0)
  let da := a.desc.getD (Desc.ofWords 0 0)
  let db := b.desc.getD (Desc.ofWords 0 0)
  let kinds := a.isTile && b.isTile && (if cplx then da.kind == 3 && db.kind == 3 else da.kind == 0 && db.kind == (if half then 1 else 0))
  let (r, k, c) := mmaDims op da db
  let shape := if half then db.cols == k else db.rows == k
  let poisoned := a.poison || b.poison
  let set := sl.acc
  let passes := if half then da.p else (if cplx then 4 else 1) * da.p * db.p
  let occ := if half then da.p * ceilDiv k 8 else passes * ceilDiv k 4
  let groups := ceilDiv k 32
  let out0 := litBits sl.lit0 0 0 = 0
  let ts := f.a.toList ++ f.b.toList
  mPlan s f (firstFault [need kinds 1, need shape 2]) ts passes occ (if 50 < passes ∧ !half then 131072 else 0) fun s col tag =>
    let s := s.modCctx f.core f.ctx fun x =>
      let z (x : CoreCtx) (i : Nat) : CoreCtx := if zero then x.setAcc i (x.acc i).zeroed else x
      let p (x : CoreCtx) (i : Nat) : CoreCtx := if poisoned then x.setAcc i { x.acc i with pmark := true } else x
      if cplx then p (z (p (z x set) set) (set ^^^ 1)) (set ^^^ 1) else p (z x set) set
    let marked := match s.cctx? f.core f.ctx with
      | some x => (x.acc set).pmark || (cplx && (x.acc (set ^^^ 1)).pmark)
      | none => false
    let h : Shape := if cplx then { rows := r, cols := c, kind := 3 } else xfShape r c
    let v : OutVal := if out0 then .newTile (h.desc marked) [] marked
      else .scalar (if marked then 0 else BitVec.ofNat 64 groups) marked
    { st := s, outs := [bothOut o v col tag], job := .mma op set groups r c (poisoned || marked) }

/-- MMA (R122). -/
def planMma := mmaPlan 1
/-- MMAZ (R122). -/
def planMmaz := mmaPlan 2
/-- MMAT (R122). -/
def planMmat := mmaPlan 3
/-- MMATZ (R122). -/
def planMmatz := mmaPlan 4
/-- CMMA (R124). -/
def planCmma := mmaPlan 5
/-- CMMAZ (R124). -/
def planCmmaz := mmaPlan 6
/-- QMMA (R123). -/
def planQmma := mmaPlan 7
/-- QMMAZ (R123). -/
def planQmmaz := mmaPlan 8

/-- The operand tiles of an MMA-family firing: the token of srcA and that of srcB (R122). -/
def mmaTiles (s : State) (f : Firing) (sl : Slot) : Option (Tile × Tile) :=
  let o := wordFields sl.word
  match f.tok o.srcA, f.tok o.srcB with
  | some a, some b => some (s.tile f.core a, s.tile f.core b)
  | _, _ => none

/-- Apply the groups of a firing's product from its progress index up to `hi` (R122, R125, R310). -/
def State.advanceMma (s : State) (f : Firing) (hi : Nat) : State :=
  match f.job with
  | .mma op set _ r c poisoned =>
    if poisoned then s.modFiring f.id fun g => { g with prog := hi }
    else match (s.slot? f.core f.ctx f.eng f.slot).bind (mmaTiles s f), s.cctx? f.core f.ctx with
      | some (a, b), some x =>
        let (accs, fl) := applyMma x.accs set op r c f.prog hi a b
        let s := (s.modCctx f.core f.ctx fun x => { x with accs := accs }).setFlags f.core f.ctx .m fl
        s.modFiring f.id fun g => { g with prog := hi }
      | _, _ => s
  | _ => s

/-- Complete a firing's product and write the sums into its result tile (R122 `emit`). -/
def State.finishMma (s : State) (f : Firing) : State :=
  match f.job with
  | .mma op set groups r c _ =>
    let s := s.advanceMma f groups
    match s.cctx? f.core f.ctx with
    | none => s
    | some x =>
      let re := (x.acc set).region r c
      let tile := if op = 5 ∨ op = 6 then complexXf r c (re ++ (x.acc (set ^^^ 1)).region r c) else xfTile r c re
      f.outs.foldl (fun s o => match o.val with
        | .tile d _ _ => s.placeTile f.core (Desc.ofWords d 0) tile.bytes
        | _ => s) s
  | _ => s

/-- The ck that one k-group of a firing takes (R121): its occupancy over its groups. -/
def groupTime (total groups : Nat) : Nat := max 1 (total / max groups 1)

/-- The block that M records when it stops a firing (R309); `psum` and `pnext` are 0 at a group boundary. -/
def contBlock (f : Firing) (a b : Token) (op acc gnext psum pnext : Nat) : BitVec 512 :=
  BitVec.ofNat 512 (op * 2^161 + acc * 2^169 + f.slot % 512 * 2^171 + f.outCol % 64 * 2^180 + f.outTag.toNat * 2^186
    + f.sect % 256 * 2^218 + gnext % 256 * 2^226 + pnext % 512 * 2^234 + psum % 8192 * 2^243
    + (b.w0.toNat + b.w1.toNat * 2^64) * 2^256 + (a.w0.toNat + a.w1.toNat * 2^64) * 2^384)

/-- MCONT (R310): resumes the firing of the context's continuation block for the groups that remain; a firing of a loaded
slot raises operand. While the firing is stopped its `busy` counts the ck that remain. -/
def execMcont (o : OpFields) (s : State) : Host.Outcome State Fault Refusal :=
  match s.firing with
  | none => .fault .noFiring
  | some f =>
    match (s.cctx? f.core f.ctx).bind (·.cont), s.firing? f.id with
    | some _, some g =>
      let swap := ((s.cctx? f.core f.ctx).map fun x => s.swapTime f.core f.ctx x.everInM).getD 0
      let t := { s with firing := none }.swapIn f.core f.ctx
      let t := t.modCctx f.core f.ctx fun x => { x with cont := none }
      finish s ((t.modFiring f.id fun h => { h with
        phase := .working, start := s.ck + swap, due := s.ck + swap + g.busy, busy := s.ck + swap + g.busy }).markIssue f.core .m)
    | _, _ => issueWith s o fun _ _ _ _ _ => Plan.faults 1

/-- ACCLD (R126); every srcB but 5 raises operand (log 61). -/
def planAccld (o : OpFields) (s : State) (f : Firing) (sl : Slot) (_ : CoreCtx) (_ : Ctx) : Plan :=
  let a := operand f sl [0, 1] o.srcA
  let (r, c) := a.dims
  let scale := decide (litBits sl.lit0 1 1 = 1)
  let set := sl.acc
  mPlan s f (firstFault [need (a.isTile && a.kindIn [0] && o.srcB == 5) 1, need (!scale || decide (c ≤ 2)) 2]) (f.a.toList ++ f.b.toList)
    1 (ceilDiv r 4) 0 fun s col tag =>
    let upd (x : CoreCtx) : CoreCtx :=
      let acc := x.acc set
      match a with
      | .tile t =>
        if a.poison then x.setAcc set { acc with pmark := true }
        else
          let vs := ((rowsOf r c (s.tile f.core t).vals).map List.toArray).toArray
          let at_ (i j : Nat) (w : BitVec 80) : BitVec 80 × Flags := (encodeXf (((vs.getD i #[])[j]?).getD (accVal w)), noFlags)
          if scale then x.setAcc set (acc.withScales (updateRegion r c acc.scales at_).1)
          else x.setAcc set { acc.withRows (updateRegion r c acc.rows at_).1 with pmark := false }
      | _ => x
    let s := s.modCctx f.core f.ctx upd
    let acc := ((s.cctx? f.core f.ctx).map fun x => x.acc set).getD AccSet.reset
    let v : OutVal := if litBits sl.lit0 0 0 = 0 then
        .newTile ((xfShape r c).desc acc.pmark) (xfTile r c (acc.region r c)).bytes acc.pmark
      else .scalar 0 acc.pmark
    { st := s, outs := [bothOut o v col tag] }

/-- ACCST (R126): the firing's mode narrows each element once to the plane form of EW and P. -/
def planAccst (o : OpFields) (s : State) (f : Firing) (sl : Slot) (y : CoreCtx) (_ : Ctx) : Plan :=
  let b := operand f sl [0, 1] o.srcB
  let r := lit64 sl.lit0 21 16
  let c := lit64 sl.lit0 29 24
  let p := if litBits sl.lit0 7 4 = 0 then 8 else litBits sl.lit0 7 4
  let e16 := decide (litBits sl.lit0 8 8 = 0)
  let mode := fireMode y sl
  mPlan s f (need (o.srcA == 4 && b.ok && decide (p ≤ 8)) 1) [] 1 (ceilDiv r 4) 0 fun s col tag =>
    let acc := ((s.cctx? f.core f.ctx).map fun x => x.acc sl.acc).getD AccSet.reset
    let h : Shape := { rows := r, cols := c, e16 := e16, p := p }
    if acc.pmark || b.poison then { st := s, outs := [bothOut o (.newTile (h.desc true) [] true) col tag] }
    else
      let (vs, fl) := gather ((acc.region r c).map fun v => v.round (planeTarget e16 p) mode)
      { st := s, flags := fl, outs := [bothOut o (.newTile (h.desc false) (denseTile r c e16 p vs).bytes false) col tag] }

/-- ACCZ (R126): σ is unchanged; a poison trigger makes the result poison (R117); every srcB but 5 raises operand (log 61). -/
def planAccz (o : OpFields) (s : State) (f : Firing) (sl : Slot) (_ : CoreCtx) (_ : Ctx) : Plan :=
  let a := operand f sl [0, 1] o.srcA
  mPlan s f (need (a.ok && o.srcB == 5) 1) [] 1 1 0 fun s col tag =>
    { st := s.modCctx f.core f.ctx fun x => x.setAcc sl.acc (x.acc sl.acc).zeroed,
      outs := [bothOut o (.scalar 0 a.poison) col tag] }

/-- ACCSCL (R126; on a marked set log 57): a scalar or 1×1 tile scales the whole set, a row or column tile its columns or rows, any other tile its
own region. -/
def planAccscl (o : OpFields) (s : State) (f : Firing) (sl : Slot) (y : CoreCtx) (_ : Ctx) : Plan :=
  let b := operand f sl srcBCodes o.srcB
  let (r, c) := b.dims
  let mode := fireMode y sl
  let rows := if r = 1 then 64 else r
  let cols := if c = 1 then 64 else c
  mPlan s f (need (o.srcA == 4 && b.ok && b.kindIn [0]) 1) (match b with | .tile t => [t] | _ => []) 1
    (ceilDiv (if b.isTile then rows else 64) 4) 0 fun s col tag =>
    if b.poison then
      { st := s.modCctx f.core f.ctx fun x => x.setAcc sl.acc { x.acc sl.acc with pmark := true },
        outs := [bothOut o (.scalar 0 true) col tag] }
    else
      let (vs, f1) := floatVals s f b r c
      let grid := ((rowsOf r c vs).map List.toArray).toArray
      let scaleAt (i j : Nat) (w : BitVec 80) : BitVec 80 × Flags :=
        let v := ((grid.getD (if r = 1 then 0 else i) #[])[if c = 1 then 0 else j]?).getD (.fin false 1 0)
        let (x, fl) := mulRound mode (accVal w) v
        (encodeXf x, fl)
      match s.cctx? f.core f.ctx with
      | none => { st := s }
      | some x =>
        let (rs, f2) := updateRegion rows cols (x.acc sl.acc).rows scaleAt
        { st := s.modCctx f.core f.ctx fun x => x.setAcc sl.acc ((x.acc sl.acc).withRows rs), flags := f1.or f2,
          outs := [bothOut o (.scalar 0 false) col tag] }

/-! ### Meanings: the issue of a firing of each operator -/

/-- MMA (R122). -/
def execMma (f : OpFields) (s : State) : Host.Outcome State Fault Refusal := issueWith s f (planMma f)

/-- MMAZ (R122). -/
def execMmaz (f : OpFields) (s : State) : Host.Outcome State Fault Refusal := issueWith s f (planMmaz f)

/-- MMAT (R122). -/
def execMmat (f : OpFields) (s : State) : Host.Outcome State Fault Refusal := issueWith s f (planMmat f)

/-- MMATZ (R122). -/
def execMmatz (f : OpFields) (s : State) : Host.Outcome State Fault Refusal := issueWith s f (planMmatz f)

/-- CMMA (R124). -/
def execCmma (f : OpFields) (s : State) : Host.Outcome State Fault Refusal := issueWith s f (planCmma f)

/-- CMMAZ (R124). -/
def execCmmaz (f : OpFields) (s : State) : Host.Outcome State Fault Refusal := issueWith s f (planCmmaz f)

/-- QMMA (R123). -/
def execQmma (f : OpFields) (s : State) : Host.Outcome State Fault Refusal := issueWith s f (planQmma f)

/-- QMMAZ (R123). -/
def execQmmaz (f : OpFields) (s : State) : Host.Outcome State Fault Refusal := issueWith s f (planQmmaz f)

/-- ACCLD (R126). -/
def execAccld (f : OpFields) (s : State) : Host.Outcome State Fault Refusal := issueWith s f (planAccld f)

/-- ACCST (R126). -/
def execAccst (f : OpFields) (s : State) : Host.Outcome State Fault Refusal := issueWith s f (planAccst f)

/-- ACCZ (R126). -/
def execAccz (f : OpFields) (s : State) : Host.Outcome State Fault Refusal := issueWith s f (planAccz f)

/-- ACCSCL. -/
def execAccscl (f : OpFields) (s : State) : Host.Outcome State Fault Refusal := issueWith s f (planAccscl f)

end Sys2Proof.Machine
end

