-- ==== Sys2Proof/Machine/Parallel.lean ====
section
/-! DEFINITION. The parallel operators (R182 to R188) and the poison, trap and debug operators (R311, R313 to R317). -/

namespace Sys2Proof.Machine

/-- The token of srcA when the sources are those of R184 and R311: srcA 0 or 1, srcB 5. -/
def loneTok (f : Firing) (o : OpFields) : Option Token :=
  if (o.srcA = 0 ∨ o.srcA = 1) ∧ o.srcB = 5 then f.tok o.srcA else none

/-- The tokens of ports a and b when srcA is 0 and srcB is 1 (R184). -/
def pairToks (f : Firing) (o : OpFields) : Option (Option Token × Option Token) :=
  if o.srcA = 0 ∧ o.srcB = 1 then some (f.a, f.b) else none

/-- The predicate that a firing consumed (R71). -/
def Firing.pred (f : Firing) : Bool := ((f.p.map fun t => t.w0.getLsbD 0)).getD false

/-- A firing whose one output list follows from its colour and tag: 1 ck and 1 unit (R182). -/
def routePlan (outs : Nat → BitVec 32 → List Out) : Plan := { effect := fun s col tag => { st := s, outs := outs col tag } }

/-- The mould of an operator that forwards its lone token (R182, R311). -/
def lonePlan (f : Firing) (o : OpFields) (k : Token → Plan) : Plan :=
  match loneTok f o with
  | some t => k t
  | none => Plan.faults 1

/-- Forward a token to some destination codes. -/
def fwd (codes : List Nat) (t : Token) (col : Nat) (tag : BitVec 32) : Out := { codes := codes, val := .forward t, col := col, tag := tag }

/-- A data-scalar to some destination codes. -/
def scalarOut (codes : List Nat) (w : Word) (col : Nat) (tag : BitVec 32) : Out :=
  { codes := codes, val := .scalar w false, col := col, tag := tag }

/-- Destination code 0 and 1 of an operator word. -/
def d0 (o : OpFields) : List Nat := [o.dest0.toNat]

/-- Destination code 1 of an operator word. -/
def d1 (o : OpFields) : List Nat := [o.dest1.toNat]

/-- STEER (R184). -/
def planSteer (o : OpFields) (_ : State) (f : Firing) (_ : Slot) (_ : CoreCtx) (_ : Ctx) : Plan :=
  lonePlan f o fun t => routePlan fun col tag => [fwd (if f.pred then d0 o else d1 o) t col tag]

/-- SELECT (R184). -/
def planSelect (o : OpFields) (_ : State) (f : Firing) (_ : Slot) (_ : CoreCtx) (_ : Ctx) : Plan :=
  match pairToks f o with
  | some (some a, some b) => routePlan fun col tag => [fwd (opDests o) (if f.pred then a else b) col tag]
  | _ => Plan.faults 1

/-- MERGE (R183, R184): the matched token stands alone on its port. -/
def planMerge (o : OpFields) (_ : State) (f : Firing) (_ : Slot) (_ : CoreCtx) (_ : Ctx) : Plan :=
  match pairToks f o with
  | some (some t, _) => routePlan fun col tag => [fwd (opDests o) t col tag]
  | some (none, some t) => routePlan fun col tag => [fwd (opDests o) t col tag]
  | _ => Plan.faults 1

/-- GATE (R184). -/
def planGate (o : OpFields) (_ : State) (f : Firing) (_ : Slot) (_ : CoreCtx) (_ : Ctx) : Plan :=
  lonePlan f o fun t => routePlan fun col tag => if f.pred then [fwd (opDests o) t col tag] else []

/-- SYNC (R184). -/
def planSync (o : OpFields) (_ : State) (f : Firing) (_ : Slot) (_ : CoreCtx) (_ : Ctx) : Plan :=
  match pairToks f o with
  | some (some a, some b) => routePlan fun col tag => [fwd (d0 o) a col tag, fwd (d1 o) b col tag]
  | _ => Plan.faults 1

/-- SINK (R184). -/
def planSink (o : OpFields) (_ : State) (f : Firing) (_ : Slot) (_ : CoreCtx) (_ : Ctx) : Plan :=
  lonePlan f o fun _ => routePlan fun _ _ => []

/-- PASS (R184). -/
def planPass (o : OpFields) (_ : State) (f : Firing) (_ : Slot) (_ : CoreCtx) (_ : Ctx) : Plan :=
  lonePlan f o fun t => routePlan fun col tag => [fwd (opDests o) t col tag]

/-- COLA (R186): the colour taken stands last in the pool unless it had been received before. -/
def planCola (o : OpFields) (_ : State) (f : Firing) (_ : Slot) (_ : CoreCtx) (_ : Ctx) : Plan :=
  if o.tag = 6 ∨ o.tag = 7 then Plan.faults 1
  else lonePlan f o fun t =>
    { cola := true,
      effect := fun s col tag =>
        let c := f.got.getD ((((s.cctx? f.core f.ctx).bind fun y => y.pool.getLast?).map (·.1)).getD 0)
        { st := s, outs := [fwd (d0 o) t c tag, scalarOut (d1 o) (BitVec.ofNat 64 c) col tag] } }

/-- COLF (R186). -/
def planColf (o : OpFields) (_ : State) (f : Firing) (sl : Slot) (y : CoreCtx) (x : Ctx) : Plan :=
  let v := operand f sl [0, 1, 3] o.srcB
  let w : Option Word := match v with
    | .scalar t => if t.isPoison then none else some t.w0
    | .lit w => some w
    | _ => none
  match w, (if o.srcA = 0 ∨ o.srcA = 1 then f.tok o.srcA else none) with
  | some w, some t =>
    let c := (w.extractLsb' 0 6).toNat
    if o.tag = 6 ∨ o.tag = 7 then Plan.faults 1
    else if x.cols < c then Plan.faults 9
    else if c ≠ 0 ∧ y.held c = false then Plan.faults 10
    else
      { effect := fun s col tag =>
          { st := s, outs := [fwd (opDests o) t col tag], freeCol := if c = 0 then none else some c } }
  | _, _ => Plan.faults 1

/-- The field that lit0[1:0] selects (R187). -/
def iterField (sl : Slot) : Nat := litBits sl.lit0 1 0

/-- ITNX (R187). -/
def planItnx (o : OpFields) (_ : State) (f : Firing) (sl : Slot) (_ : CoreCtx) (x : Ctx) : Plan :=
  let k := iterField sl
  let w := tagWidth x.tagfmt k
  let l := sl.lit1.toNat
  if o.tag ≠ 0 ∨ w = 0 ∨ l < 1 ∨ 2^w < l then Plan.faults 1
  else lonePlan f o fun t => routePlan fun col tag =>
    let n := tagField x.tagfmt f.tag k + 1
    if n < l then [fwd (d0 o) t col (setTagField x.tagfmt tag k n)]
    else [fwd (d1 o) t col (setTagField x.tagfmt tag k 0)]

/-- ITEX (R187). -/
def planItex (o : OpFields) (_ : State) (f : Firing) (sl : Slot) (_ : CoreCtx) (x : Ctx) : Plan :=
  let c := (sl.lit1.extractLsb' 0 6).toNat
  if o.tag ≠ 0 ∧ o.tag ≠ 7 then Plan.faults 1
  else if x.cols < c then Plan.faults 9
  else lonePlan f o fun t => routePlan fun _ _ =>
    let tag := (List.range (iterField sl + 1)).foldl (fun tg k => setTagField x.tagfmt tg k 0) f.tag
    [fwd (opDests o) t c tag]

/-- FORK (R188): the copies go one per ck, then the count. -/
def planFork (o : OpFields) (_ : State) (f : Firing) (sl : Slot) (_ : CoreCtx) (x : Ctx) : Plan :=
  let k := iterField sl
  let n := sl.lit1.toNat
  if o.tag ≠ 0 ∨ n < 1 ∨ min 256 (2^(tagWidth x.tagfmt k)) < n then Plan.faults 1
  else lonePlan f o fun t =>
    { cost := n, occ := n,
      effect := fun s col tag =>
        { st := s,
          outs := ((List.range n).map fun i => fwd (d0 o) t col (setTagField x.tagfmt tag k i))
            ++ [scalarOut (d1 o) (BitVec.ofNat 64 n) col tag] } }

/-- The operand sources of the predicate operators (R185). -/
def truthCodes : List Nat := [0, 1, 2, 3, 5, 6]

/-- A predicate from an operand's truth (R182, R185): poison raises poison predicate, an ECC error in any byte of the
tile's plane tile ECC (log 91). -/
def predPlan (s : State) (f : Firing) (o : OpFields) (v : Operand) (poisoned : Bool) (g : Bool → Bool) : Plan :=
  if !v.ok then Plan.faults 1
  else if poisoned || v.poison then Plan.faults 15
  else if (match v with | .tile t => s.tileEcc f.core t | _ => false) then Plan.faults 17
  else
    let b := g (v.truth s f.core)
    routePlan fun col tag => [{ codes := opDests o, val := .pred b, col := col, tag := tag }]

/-- PAND (R185). -/
def planPand (o : OpFields) (s : State) (f : Firing) (sl : Slot) (_ : CoreCtx) (_ : Ctx) : Plan :=
  if o.srcB = 5 then predPlan s f o (operand f sl truthCodes o.srcA) false fun b => f.pred && b else Plan.faults 1

/-- POR (R185). -/
def planPor (o : OpFields) (s : State) (f : Firing) (sl : Slot) (_ : CoreCtx) (_ : Ctx) : Plan :=
  if o.srcB = 5 then predPlan s f o (operand f sl truthCodes o.srcA) false fun b => f.pred || b else Plan.faults 1

/-- PNOT (R185). -/
def planPnot (o : OpFields) (_ : State) (f : Firing) (_ : Slot) (_ : CoreCtx) (_ : Ctx) : Plan :=
  if o.srcA = 5 ∧ o.srcB = 5 then
    routePlan fun col tag => [{ codes := opDests o, val := .pred (!f.pred), col := col, tag := tag }]
  else Plan.faults 1

/-- PCNST (R185). -/
def planPcnst (o : OpFields) (s : State) (f : Firing) (sl : Slot) (_ : CoreCtx) (_ : Ctx) : Plan :=
  match (if o.srcA = 0 ∨ o.srcA = 1 then f.tok o.srcA else none) with
  | some t => predPlan s f o (operand f sl truthCodes o.srcB) t.isPoison id
  | none => Plan.faults 1

/-- A token as poison (R313): the same tile with PSN set in header and descriptor, or the same payload. -/
def Token.poisoned (t : Token) : Token :=
  if t.isTile then { t with kind := 5, psn := true, w0 := setBit t.w0 43 true } else { t with kind := 6, psn := true }

/-- PSN (R313). -/
def planPsn (o : OpFields) (_ : State) (f : Firing) (_ : Slot) (_ : CoreCtx) (_ : Ctx) : Plan :=
  lonePlan f o fun t => routePlan fun col tag => [fwd (opDests o) t.poisoned col tag]

/-- PTST (R313). -/
def planPtst (o : OpFields) (_ : State) (f : Firing) (_ : Slot) (_ : CoreCtx) (_ : Ctx) : Plan :=
  lonePlan f o fun t => routePlan fun col tag =>
    [{ codes := d0 o, val := .pred t.isPoison, col := col, tag := tag }, fwd (d1 o) t col tag]

/-- SEAL (R314). -/
def planSeal (o : OpFields) (_ : State) (f : Firing) (_ : Slot) (_ : CoreCtx) (_ : Ctx) : Plan :=
  lonePlan f o fun _ => { effect := fun s _ _ => { st := s.raise f.ctx f.sect 18 } }

/-- TRAPO (R160, R315): a notice to the control core, if the context owns it; then it waits while eight notices wait. -/
def planTrapo (o : OpFields) (s : State) (f : Firing) (sl : Slot) (_ : CoreCtx) (_ : Ctx) : Plan :=
  lonePlan f o fun t =>
    { notice := decide ((s.ctl f.core).owner = some f.ctx),
      effect := fun s col tag =>
        let c := s.ctl f.core
        let s := if c.owner = some f.ctx then s.setCtl ({ c with trapos := c.trapos ++ [sl.lit0] }.setPend s.ck 18) else s
        { st := s, outs := [fwd (opDests o) t col tag] } }

/-- DBRK (R316): the comparator is set when the firing sends. -/
def planDbrk (o : OpFields) (_ : State) (f : Firing) (sl : Slot) (_ : CoreCtx) (_ : Ctx) : Plan :=
  if litBits sl.lit0 60 17 ≠ 0 ∨ litBits sl.lit0 1 0 ≠ 0 then Plan.faults 1
  else lonePlan f o fun t => routePlan fun col tag => [fwd (opDests o) t col tag]

/-- DSTP (R317): the stop follows the send. -/
def planDstp (o : OpFields) (_ : State) (f : Firing) (_ : Slot) (_ : CoreCtx) (_ : Ctx) : Plan :=
  lonePlan f o fun t => routePlan fun col tag => [fwd (opDests o) t col tag]

/-- DHLD (R317): the halt line follows the send. -/
def planDhld (o : OpFields) (_ : State) (f : Firing) (_ : Slot) (_ : CoreCtx) (_ : Ctx) : Plan :=
  lonePlan f o fun t => routePlan fun col tag => [fwd (opDests o) t col tag]

/-! ### Meanings: the issue of a firing of each operator -/

/-- STEER (R184). -/
def execSteer (f : OpFields) (s : State) : Host.Outcome State Fault Refusal := issueWith s f (planSteer f)

/-- SELECT (R184). -/
def execSelect (f : OpFields) (s : State) : Host.Outcome State Fault Refusal := issueWith s f (planSelect f)

/-- MERGE (R183, R184). -/
def execMerge (f : OpFields) (s : State) : Host.Outcome State Fault Refusal := issueWith s f (planMerge f)

/-- GATE (R184). -/
def execGate (f : OpFields) (s : State) : Host.Outcome State Fault Refusal := issueWith s f (planGate f)

/-- SYNC (R184). -/
def execSync (f : OpFields) (s : State) : Host.Outcome State Fault Refusal := issueWith s f (planSync f)

/-- SINK (R184). -/
def execSink (f : OpFields) (s : State) : Host.Outcome State Fault Refusal := issueWith s f (planSink f)

/-- PASS (R184). -/
def execPass (f : OpFields) (s : State) : Host.Outcome State Fault Refusal := issueWith s f (planPass f)

/-- COLA (R186). -/
def execCola (f : OpFields) (s : State) : Host.Outcome State Fault Refusal := issueWith s f (planCola f)

/-- COLF (R186). -/
def execColf (f : OpFields) (s : State) : Host.Outcome State Fault Refusal := issueWith s f (planColf f)

/-- ITNX (R187). -/
def execItnx (f : OpFields) (s : State) : Host.Outcome State Fault Refusal := issueWith s f (planItnx f)

/-- ITEX (R187). -/
def execItex (f : OpFields) (s : State) : Host.Outcome State Fault Refusal := issueWith s f (planItex f)

/-- FORK (R188). -/
def execFork (f : OpFields) (s : State) : Host.Outcome State Fault Refusal := issueWith s f (planFork f)

/-- PAND (R185). -/
def execPand (f : OpFields) (s : State) : Host.Outcome State Fault Refusal := issueWith s f (planPand f)

/-- POR (R185). -/
def execPor (f : OpFields) (s : State) : Host.Outcome State Fault Refusal := issueWith s f (planPor f)

/-- PNOT (R185). -/
def execPnot (f : OpFields) (s : State) : Host.Outcome State Fault Refusal := issueWith s f (planPnot f)

/-- PCNST (R185). -/
def execPcnst (f : OpFields) (s : State) : Host.Outcome State Fault Refusal := issueWith s f (planPcnst f)

/-- PSN (R313). -/
def execPsn (f : OpFields) (s : State) : Host.Outcome State Fault Refusal := issueWith s f (planPsn f)

/-- PTST (R313). -/
def execPtst (f : OpFields) (s : State) : Host.Outcome State Fault Refusal := issueWith s f (planPtst f)

/-- SEAL (R314). -/
def execSeal (f : OpFields) (s : State) : Host.Outcome State Fault Refusal := issueWith s f (planSeal f)

/-- TRAPO (R160, R315). -/
def execTrapo (f : OpFields) (s : State) : Host.Outcome State Fault Refusal := issueWith s f (planTrapo f)

/-- DBRK (R316). -/
def execDbrk (f : OpFields) (s : State) : Host.Outcome State Fault Refusal := issueWith s f (planDbrk f)

/-- DSTP (R317). -/
def execDstp (f : OpFields) (s : State) : Host.Outcome State Fault Refusal := issueWith s f (planDstp f)

/-- DHLD (R317). -/
def execDhld (f : OpFields) (s : State) : Host.Outcome State Fault Refusal := issueWith s f (planDhld f)

end Sys2Proof.Machine
end

