-- ==== Sys2Proof/Machine/Dataflow.lean ====
section
/-! DEFINITION. The events of the dataflow engines: EOS firings and error-EOS (R26, R27), sending results (R19), placing
tokens (R28, R30, R179), the tile allocator (R12, R14), colours (R167), energy (R177) and the deadlock detector (R180). -/

namespace Sys2Proof.Machine

/-! ### EOS firings -/

/-- What an EOS firing sends: EOS to each non-discard destination, with the tag action applied (R26). -/
def eosPlan (o : OpFields) : Plan :=
  { cost := 0, inOrder := true, effect := fun s col tag => { st := s, outs := [bothOut o .eos col tag] } }

/-- The marker that RPUSH pushes for EOS (SK 1) or error-EOS (SK 2), in place of R26 and R27 (R248, R251). -/
def markerPlan (marker : Nat) (o : OpFields) (s : State) (f : Firing) (sl : Slot) (y : CoreCtx) : Plan :=
  if litBits sl.lit0 63 24 ≠ 0 then Plan.faults 1
  else withObj s f (handleOf sl.lit0) 1 1 fun r =>
    chestPlan s 2 7 (handleOf sl.lit0) r 1 1 true true 0
      (fun _ col tag => [if marker = 1 then bothOut o .eos col tag else bothOut o .errorEos col tag])
      (.push (handleOf sl.lit0) r 0 0 marker (objMode y sl r))

/-- EOS_FIRING (R26): the Drawer's firing performs no effect; it costs nothing and does not count. RPUSH pushes a marker. -/
def execEosFiring (s : State) : Host.Outcome State Fault Refusal :=
  match s.firing with
  | none => .fault .noFiring
  | some f =>
    let s0 := { s with firing := none }
    match s.slot? f.core f.ctx f.eng f.slot, s.cctx? f.core f.ctx with
    | some sl, some y =>
      let o := sendFields sl.word
      let p := if wordOp sl.word = 0x2B then markerPlan 1 o s0 f sl y else eosPlan o
      finish s (issuePlan s0 { f with eos := true } sl o p)
    | _, _ => finish s (s0.dropTiles f.core f.toks)

/-! ### Sending -/

/-- Whether an engine may still send for a context: it has not stopped, and `dolz` does not hold the context (R193, R284, R289). -/
def State.mayFlow (s : State) (core ctx : Nat) (e : Eng) : Bool := s.engineLive core ctx (engCode e) && !s.held ctx

/-- Whether an earlier firing of the same slot must send first (R127). -/
def State.behindInOrder (s : State) (f : Firing) : Bool :=
  f.inOrder && s.flow.firings.any fun g =>
    g.core == f.core && g.ctx == f.ctx && g.eng == f.eng && g.slot == f.slot && g.inOrder && decide (g.id < f.id)
      && g.phase != Phase.sent

/-- Whether a firing that has not sent keeps its engine from starting another (R118, R141): M's product until its sums stand in the
accumulator, and a V firing with no access outstanding until its last result has left, unless it waits behind an earlier firing of its slot
(R127, R190). -/
def State.holdsEngine (s : State) (f : Firing) : Bool :=
  match f.job with
  | .mma _ _ _ _ _ _ => true
  | .none => f.eng == .v && !s.behindInOrder f
  | _ => false

/-- Whether an engine of a core is occupied by a firing of any context (R118, R121, R141, R142, R182). -/
def State.occupied (s : State) (core : Nat) (e : Eng) : Bool :=
  s.flow.firings.any fun f => f.core == core && f.eng == e && !f.genHeld && f.phase == Phase.working
    && (decide (s.ck < f.busy) || s.holdsEngine f)

/-- The Bench entry that a TKRP waits for (R348). -/
def State.awaited (s : State) (f : Firing) (b : Nat) : Option Bench :=
  (s.benchOf f.core).find? fun e => e.idx == b && e.ctx == f.ctx && e.wait

/-- Whether a firing's access has ended, as far as its next send needs it: a store or an atomic with a ticket sends before its
replay (R344, R346). -/
def State.jobDone (s : State) (f : Firing) : Bool :=
  match f.job with
  | .none => true
  | .mma _ _ _ _ _ _ => ((s.cctx? f.core f.ctx).bind (·.cont)).isNone
  | .hub _ _ => f.phase == Phase.ready && decide (f.outs.length = 2)
  | .ticketResult b => match s.awaited f b with
    | some e => e.st == 4
    | none => true
  | .store _ | .scalarStore _ _ _ | .snapshot _ _ | .atomic _ _ _ _ _ _ | .invoke _ _ _ _ => f.phase == Phase.ready
  | _ => false

/-- Whether a firing is FORK's, which sends one copy per ck (R188). -/
def Firing.forks (f : Firing) : Bool := f.op == 0x89 && !f.eos

/-- Whether a firing goes towards its end: at work, waiting for its replay, or stopped by a halt with nothing left for its engine to do, as
when memory answers a reissued access before the engine has issued again (R296). -/
def Firing.goesOn (f : Firing) : Bool :=
  match f.phase with
  | .working | .ready => true
  | .stopped => !f.needsEngine
  | _ => false

/-- Whether a firing may send now (R19, R127, R188, R284). -/
def State.canSend (s : State) (f : Firing) : Bool :=
  s.mayFlow f.core f.ctx f.eng && f.goesOn && s.jobDone f && !s.behindInOrder f
    && (if f.forks then decide (f.due + 2 ≤ s.ck + f.outs.length) else decide (f.due ≤ s.ck))

/-- A TKRP whose entry is held gets its result, and the entry is freed (R348). -/
def State.takeTicket (s : State) (f : Firing) (b : Nat) : Option (State × Firing) :=
  (s.awaited f b).map fun e =>
    let val (i : Nat) : OutVal := if i = 1 ∧ e.op = 0x2A then .pred e.ok else .scalar e.result false
    (s.freeBenchOf e, { f with outs := f.outs.zipIdx.map fun q => { q.1 with val := val q.2 } })

/-- Set an address comparator from DBRK's lit0 (R316). -/
def State.setComparator (s : State) (f : Firing) (w : Word) : State :=
  let c := s.ctl f.core
  if c.owner = some f.ctx then
    s.setCtl { c with cmps := c.cmps.set (litBits w 62 61) (w.getLsbD 63, litBits w 16 2) }
  else s

/-- What the debug operators do once they have forwarded (R316, R317): DHLD's cause has kind 0. -/
def State.afterSend (s : State) (f : Firing) : State :=
  let dolz := ((s.ctx? f.ctx).map (·.dolz)).getD false
  if f.eos then s
  else if f.op = 0xA4 then s.setComparator f (((s.slot? f.core f.ctx f.eng f.slot).map (·.lit0)).getD 0)
  else if f.op = 0xA5 ∧ dolz then s.debugStop 4 f
  else if f.op = 0xA6 ∧ dolz then
    s.addCause f.ctx { kind := 0, core := f.core, e := engCode f.eng, slot := f.slot, handle := 0, gen := 0, block := 0, order := none }
  else s

/-- The work area of a V firing returns to the allocator as its results leave (R143). -/
def State.trimArea (s : State) (f : Firing) : State :=
  if workArea f.op = 0 then s
  else f.outs.foldl (fun s o => match o.val with
    | .tile d _ _ => let k := Desc.ofWords d 0; s.shrink f.core k.alloc k.bytes
    | _ => s) s

/-- Send a firing's outputs, unless its section is sealed (R297), and end it. -/
def State.sendAll (s : State) (f : Firing) : State :=
  let s := s.trimArea f
  if f.sealed then s.endFiring f else ((f.outs.foldl (fun s o => s.sendOut f o) s).afterSend f).endFiring f

/-- Send a firing's first output only; the others stay. -/
def State.sendFirst (s : State) (f : Firing) : State :=
  match f.outs with
  | [] => s.endFiring f
  | o :: t => (if f.sealed then s else s.sendOut f o).modFiring f.id fun g => { g with outs := t, prog := g.prog + 1 }

/-- FIRING_RESULT_SEND (R19): FORK sends one copy, and its count with the last (R188); PUBL's first token leaves before its old
generation has drained (R274). -/
def execFiringResultSend (fid : Nat) (s : State) : Host.Outcome State Fault Refusal :=
  match s.firing? fid with
  | none => finish s s
  | some f =>
    if s.canSend f = false then finish s s
    else match f.job with
      | .mma _ _ _ _ _ _ => finish s ((s.finishMma f).sendAll f)
      | .hub _ _ => finish s (s.sendFirst f)
      | .ticketResult b =>
        match s.takeTicket f b with
        | some (t, g) => finish s (t.sendAll g)
        | none => finish s (s.failFiring f 1)
      | _ => if f.forks ∧ 2 < f.outs.length then finish s (s.sendFirst f) else finish s (s.sendAll f)

/-! ### Arrival -/

/-- Whether a token is an error-EOS that a live slot takes by R27. -/
def State.errorSlot (s : State) (t : Token) : Option (CoreCtx × Slot) :=
  if t.kind = 4 ∧ t.port < 2 then
    match s.arrival t with
    | .drawer y sl => some (y, sl)
    | _ => none
  else none

/-- Whether a token in flight has no earlier one on its route (R17). -/
def State.firstOnRoute (s : State) (n : Nat) (nt : NetTok) : Bool := !((s.flow.net.take n).any fun q => q.sameRoute nt)

/-- Whether a token's engine has issued, or asked for a colour, in this ck (R23, R166). -/
def State.engineMoved (s : State) (t : Token) : Bool := t.eng != .c && (s.issuedNow t.core t.eng || s.askedNow t.core t.eng)

/-- Take token n out of the network. -/
def State.takeNet (s : State) (n : Nat) : State := s.modFlow fun w => { w with net := w.net.eraseIdx n }

/-- TOKEN_ARRIVAL (R14, R22, R28, R30, R178, R179): the n-th token in flight, unless it is an error-EOS for a slot. A token for an
engine that has issued or asked for a colour in this ck comes in the next, so that Drawers matched in one ck issue in slot order (R23). -/
def execTokenArrival (n : Nat) (s : State) : Host.Outcome State Fault Refusal :=
  match s.flow.net[n]? with
  | none => finish s s
  | some nt =>
    if s.firstOnRoute n nt = false ∨ (s.errorSlot nt.tok).isSome ∨ s.arrival nt.tok = .hold ∨ s.engineMoved nt.tok = true then finish s s
    else finish s ((s.takeNet n).ingress nt)

/-- The unmatched Drawers of a key are discarded, their tokens counted as orphans (R27). -/
def State.dropKey (s : State) (t : Token) : State :=
  let hit (d : Drawer) : Bool := d.keyIs t.core t.ctx t.eng t.slot t.col
  let toks := (s.flow.drawers.filter hit).flatMap fun d => d.a.toList ++ d.b.toList ++ d.p.toList
  ((s.dropTiles t.core toks).orphans t.ctx toks.length).modFlow fun w => { w with drawers := w.drawers.filter fun d => !hit d }

/-- A firing that stands for the passing of a token through a slot. -/
def passing (id : Nat) (sl : Slot) (t : Token) : Firing :=
  { id := id, core := t.core, ctx := t.ctx, eng := t.eng, slot := t.slot, sect := sl.sect, op := wordOp sl.word, col := t.col,
    tag := t.tag, a := none, b := none, p := none, got := none, outCol := t.col, outTag := t.tag, freeCol := none, outs := [],
    release := [], phase := .working, start := 0, due := 0, genHeld := false, strm := 0, inOrder := false, order := none, job := .none, prog := 0,
    sealed := false, eos := true, psum := none, busy := 0, occ := 0, born := 0, mseq := 0, mck := 0 }

/-- Whether a core's Chest has a free entry (R286). -/
def State.chestRoom (s : State) (core : Nat) : Bool := decide ((s.msys.chest.filter fun e => e.core == core).length < 128)

/-- Whether an error-EOS for an RPUSH meets a recoverable fault, which its context has not raised yet (R204, R248). -/
def State.errorHalts (s : State) (y : CoreCtx) (sl : Slot) (t : Token) : Bool :=
  let raised (x : Ctx) : Bool := x.causes.any fun c => c.core == t.core && c.e == engCode t.eng && c.slot == t.slot && c.order.isNone
  wordOp sl.word == 0x2B && s.runs t.ctx && !((s.ctx? t.ctx).any raised) && (markerPlan 2 (wordFields sl.word) s (passing s.nextId sl t) sl y).halt.isSome

/-- Error-EOS passes a slot (R27): RPUSH pushes a marker in its place (R248), its colour and tag unchanged (R164). -/
def State.passErrorEos (s : State) (y : CoreCtx) (sl : Slot) (t : Token) : State :=
  let o := sendFields sl.word
  let s := s.dropKey t
  let f := passing s.nextId sl t
  if wordOp sl.word = 0x2B then
    let p := markerPlan 2 o s f sl y
    match p.fault, p.halt with
    | some k, _ => s.raise t.ctx sl.sect k
    | none, some q => s.addCause t.ctx
        { kind := q.1, core := t.core, e := engCode t.eng, slot := t.slot, handle := q.2.1, gen := q.2.2.1, block := q.2.2.2, order := none }
    | none, none =>
      let s := s.modCctx t.core t.ctx fun y => y.debit (classUnits sl.ecls)
      let e := p.effect s t.col t.tag
      let (s, order) : State × Option Nat := match p.chest with
        | some n =>
          let (s', o) := s.enterChest f n 0
          (s', some o)
        | none => (s, none)
      { s.modFlow fun w => { w with firings := w.firings ++ [{ f with
          outs := e.outs, order := order, job := e.job, inOrder := true, strm := s.requestStream f o e.job, start := s.ck, due := s.ck + 1,
          busy := s.ck + 1, occ := 1, born := s.ck }] } with
        nextId := s.nextId + 1 }
  else s.sendOut f (bothOut o .errorEos t.col t.tag)

/-- Whether a slot can take an error-EOS now: its engine sends for the context, and an RPUSH has a Chest entry and a record to
push to (R27, R248, R284; log 23). -/
def State.takesErrorEos (s : State) (y : CoreCtx) (sl : Slot) (t : Token) : Bool :=
  s.mayFlow t.core t.ctx t.eng && (wordOp sl.word != 0x2B || (s.chestRoom t.core
    && (markerPlan 2 (wordFields sl.word) s (passing s.nextId sl t) sl y).halt.isNone))

/-- ERROR_EOS_ARRIVAL (R27): the n-th token in flight; it waits at the ingress behind earlier tokens of its channel. -/
def execErrorEosArrival (n : Nat) (s : State) : Host.Outcome State Fault Refusal :=
  match s.flow.net[n]? with
  | none => finish s s
  | some nt =>
    match s.errorSlot nt.tok with
    | none => finish s s
    | some (y, sl) =>
      if s.firstOnRoute n nt = false then finish s s
      else if s.laneBusy nt then finish s ((s.takeNet n).modFlow fun w => { w with ingress := w.ingress ++ [nt] })
      else if s.takesErrorEos y sl nt.tok then finish s ((s.takeNet n).passErrorEos y sl nt.tok)
      else if s.errorHalts y sl nt.tok then finish s (s.passErrorEos y sl nt.tok)
      else finish s s

/-- Take token n out of the ingress. -/
def State.takeIngress (s : State) (n : Nat) : State := s.modFlow fun w => { w with ingress := w.ingress.eraseIdx n }

/-- Whether token n of the ingress is the first of its channel. -/
def State.firstInLane (s : State) (n : Nat) (nt : NetTok) : Bool := !((s.flow.ingress.take n).any fun q => q.precedes nt)

/-- INGRESS_HELD_TOKEN_PLACE (R28, R179): the n-th token of the ingress, first of its channel; a tile packet that comes first asks
the allocator for its run (R14). -/
def execIngressHeldTokenPlace (n : Nat) (s : State) : Host.Outcome State Fault Refusal :=
  match s.flow.ingress[n]? with
  | none => finish s s
  | some nt =>
    if s.firstInLane n nt = false ∨ s.engineMoved nt.tok = true then finish s s
    else if s.wantsRoom nt then
      if s.flow.reqs.any fun r => r.who == .packet nt then finish s s
      else finish s (s.modFlow fun w => { w with
        reqs := w.reqs ++ [{ core := nt.tok.core, bytes := (Desc.ofWords nt.tok.w0 0).bytes, who := .packet nt }] })
    else
      let t := s.takeIngress n
      match s.errorSlot nt.tok with
      | some (y, sl) => if s.takesErrorEos y sl nt.tok then finish s (t.passErrorEos y sl nt.tok)
        else if s.errorHalts y sl nt.tok then finish s (s.passErrorEos y sl nt.tok) else finish s s
      | none => match t.place nt.tok nt.body.isNone with
        | some u => finish s { u with flow := { u.flow with reqs := u.flow.reqs.filter fun r => r.who != .packet nt } }
        | none => finish s s

/-! ### The tile allocator -/

/-- The oldest waiting request of a core (R12). -/
def State.headReq (s : State) (core : Nat) : Option AllocReq := s.flow.reqs.find? fun r => r.core == core

/-- Remove the oldest request of a core. -/
def State.dropReq (s : State) (core : Nat) : State :=
  s.modFlow fun w => { w with reqs := match w.reqs.findIdx? fun r => r.core == core with
    | some i => w.reqs.eraseIdx i
    | none => w.reqs }

/-- TILE_PACKET_PLACE (R14): the allocator serves the packet whose request is the core's oldest; a placed tile whose token finds
no Drawer or queue room stays at the ingress. -/
def execTilePacketPlace (core : Nat) (s : State) : Host.Outcome State Fault Refusal :=
  match s.headReq core with
  | some r =>
    match r.who with
    | .packet nt =>
      let n := s.flow.ingress.findIdx fun q => q == nt
      if s.wantsRoom nt = false then finish s (s.dropReq core)
      else if s.engineMoved nt.tok then finish s s
      else match (s.dropReq core).unpack nt with
        | none => finish s s
        | some (t, tok) =>
          match (t.takeIngress n).place tok true with
          | some u => finish s u
          | none => finish s (t.modFlow fun w => { w with ingress := w.ingress.set n { nt with tok := tok, body := none } })
    | _ => finish s s
  | none => finish s s

/-- Whether the engine of a firing whose space has been met cannot take it up now: another firing occupies it, or both generators of S are
in use beside its own (R118, R127, R141). That happens after a restore alone, as a request that waits holds its engine (R12). -/
def State.engineTaken (s : State) (f : Firing) : Bool :=
  if f.genHeld then decide (2 < s.gensInUse f.core) else s.occupied f.core f.eng

/-- A firing whose space has all been met goes on (R12): its occupancy runs from now. One that a halt has stopped stays stopped, with all
of its occupancy to come (R284), as does one whose engine works for another context, until that is free (R141); one whose answer has come
already has nothing left to perform (R339). -/
def State.resumeIssue (s : State) (id : Nat) : State :=
  match s.firing? id with
  | none => s
  | some f =>
    if (s.flow.reqs.any fun r => r.who == .firing id || r.who == .psum id) then s
    else if s.engineLive f.core f.ctx (engCode f.eng) = false ∨ (f.needsEngine = true ∧ s.engineTaken f = true) then (s.modFiring id fun g => { g with phase := .stopped }).afterRun f
    else (s.modFiring id fun g => { g with
      phase := .working, start := s.ck, due := max g.due (s.ck + g.busy), busy := s.ck + g.busy }).afterRun f

/-- The context for which a request of the allocator waits. -/
def State.reqCtx (s : State) (r : AllocReq) : Option Nat :=
  match r.who with
  | .firing id | .psum id => (s.firing? id).map (·.ctx)
  | .packet nt => some nt.tok.ctx
  | .saveArea k => some k

/-- ALLOCATION_GRANT (R12, R119, R249, R309): the core's oldest request is met, if it is not a packet's and a run is free; one of a context
that `dolz` holds waits (R193). -/
def execAllocationGrant (core : Nat) (s : State) : Host.Outcome State Fault Refusal :=
  match s.headReq core with
  | none => finish s s
  | some r =>
    if (s.reqCtx r).any s.held then finish s s else
    match r.who with
    | .packet _ => finish s s
    | .saveArea ctx =>
      match s.allocate core ctx r.bytes with
      | some (t, a) => finish s ((t.dropReq core).modCctx core ctx fun y => { y with area := some a.idx })
      | none => finish s s
    | .psum id =>
      match s.firing? id with
      | none => finish s (s.dropReq core)
      | some f => match s.allocate core f.ctx r.bytes with
        | some (t, a) =>
          let u := (t.dropReq core).modFiring id fun g => { g with psum := some a.idx }
          let u := match f.order with
            | some o => if f.op = 0x2C then u.modChest core f.ctx o fun e => { e with alloc := a.idx } else u
            | none => u
          finish s (u.resumeIssue id)
        | none => finish s s
    | .firing id =>
      match s.firing? id with
      | none => finish s (s.dropReq core)
      | some f =>
        let rest := (s.dropReq core).flow.reqs
        let clear := { s with flow := { s.flow with reqs := rest.filter fun q => q.core != core } }
        let (t, outs, done) := placeOuts f.op core f.ctx clear f.outs
        if outs == f.outs then finish s s
        else
          let new := madeTiles (outs.drop 0) |>.filter fun i => !(madeTiles f.outs).contains i
          let u := t.modFiring id fun g => { g with outs := outs, release := g.release ++ (if f.op = 0x2C then [] else new) }
          let u := match f.order with
            | some o => u.modChest core f.ctx o fun e => { e with alloc := if f.op = 0x2C then e.alloc else entryAlloc outs f.job }
            | none => u
          let again : List AllocReq := if done then [] else [{ core := core, bytes := pendingBytes f.op outs, who := .firing id }]
          let u := { u with flow := { u.flow with reqs := again ++ rest } }
          finish s (u.resumeIssue id)

/-- OVERFLOW_DRAWER_MOVE (R178): the engine's oldest unmatched overflow Drawer moves into a free one. -/
def execOverflowDrawerMove (core : Nat) (eng : Eng) (s : State) : Host.Outcome State Fault Refusal :=
  if s.engineDrawers core eng < 256 then
    match s.flow.drawers.findIdx? fun d => d.core == core && d.eng == eng && d.overflow.isSome with
    | some i => finish s (s.modFlow fun w => { w with drawers := w.drawers.modify i fun d => { d with overflow := none } })
    | none => finish s s
  else finish s s

/-! ### Colours and energy -/

/-- The oldest firing of a context that waits for a colour on a core, in the order M, V, S among those of one ck (R167). -/
def State.colourWaiter (s : State) (core ctx : Nat) : Option Ready :=
  let ws := s.flow.cwait.filter fun r => r.core == core && r.ctx == ctx && r.got.isNone
  ws.foldl (fun acc r => match acc with
    | none => some r
    | some q => if r.since < q.since ∨ (r.since = q.since ∧ engCode r.eng < engCode q.eng) then some r else some q) none

/-- COLOUR_RETURN (R26, R167): the n-th returned colour, once its ck has come, goes to its pool, or at once to the oldest waiter. -/
def execColourReturn (n : Nat) (s : State) : Host.Outcome State Fault Refusal :=
  match s.flow.returns[n]? with
  | none => finish s s
  | some r =>
    let core := r.core
    let ctx := r.ctx
    let c := r.col
    let t := s.modFlow fun w => { w with returns := w.returns.eraseIdx n }
    match s.cctx? core ctx with
    | none => finish s t
    | some y =>
      if s.ck < r.due ∨ s.held ctx = true then finish s s
      else if y.held c = false then finish s t
      else
        let t := t.modCctx core ctx fun y => { y with
          pool := y.pool.filter fun q => q.1 != c
          eosSeen := y.eosSeen.filter fun q => q.2.2.1 != c }
        match t.colourWaiter core ctx with
        | none => finish s t
        | some w =>
          let sect := ((t.slot? core ctx w.eng w.slot).map (·.sect)).getD 0
          let t := t.modCctx core ctx fun y => { y with pool := y.pool ++ [(c, sect)] }
          finish s (t.modFlow fun q => { q with
            cwait := modify (fun r => r.core == core && r.ctx == ctx && r.seq == w.seq && r.eng == w.eng)
              (fun r => { r with got := some c }) q.cwait })

/-- Refill one context's budget on one core (R177). -/
def CoreCtx.refill (y : CoreCtx) (erate ceiling : Nat) : CoreCtx :=
  let pay := min erate y.shortfall
  { y with shortfall := y.shortfall - pay, ebudget := min ceiling (y.ebudget + erate - pay) }

/-- Refill every resident context (R177, R285). -/
def State.refillAll (s : State) : State :=
  { s with cores := s.cores.map fun y => match s.ctx? y.ctx with
      | some x => if y.saved then y else y.refill x.erate x.ceiling
      | none => y }

/-! ### The deadlock detector -/

/-- The die of a core (R1). -/
def dieOf (core : Nat) : Nat := core / 64

/-- Whether a ring bars a push or pop (R211): it is full, or empty. -/
def State.ringBars (s : State) (h : Nat) (r : ObjRec) (push : Bool) : Bool :=
  let rd (o : Nat) : Nat := s.readNat (s.readPlace h r.gen (r.base + o)) 8
  (rd 8 + 2^64 - rd 0) % 2^64 == if push then dim r.shape 2 else 0

/-- Whether a firing counts as waiting and not as in progress (R250, R272): a push or pop that its ring bars, or a CNWT, not performed
yet. One that a full recent-tag table holds up is outstanding (R288). -/
def State.waits (s : State) (f : Firing) : Bool :=
  let undone := match f.order.bind (s.chest? f.core f.ctx) with
    | some e => !e.done && e.st == 0
    | none => false
  undone && match f.job with
    | .push h r _ _ _ _ => s.ringBars h r true && s.tagRoom (Sys2Proof.Machine.bankKey r.base)
    | .pop h r => s.ringBars h r false && s.tagRoom (Sys2Proof.Machine.bankKey r.base)
    | .counterWait _ _ _ _ => true
    | _ => false

/-- The packets of which a port holds the last bytes, in flits not yet acknowledged or in none yet. -/
def Port.packets (p : Port) : List Packet := p.carried.map (·.2) ++ p.forming.filterMap (·.last)

/-- Whether a packet brings a token of a context to a core of a die, or from one of this device (R180). -/
def State.carries (s : State) (ctx die : Nat) (p : Packet) : Bool :=
  match p.body with
  | .token nt => (p.srcDev == s.devId && p.ctx == ctx && dieOf nt.srcCore == die)
      || (p.dstDev == s.devId && nt.tok.ctx == ctx && dieOf nt.tok.core == die)
  | .refused nt => p.dstDev == s.devId && nt.tok.ctx == ctx && dieOf nt.srcCore == die
  | _ => false

/-- Whether a token of a context is in flight to or from a die (R180), within the device, in a packet at a hub, or in one that a port has
taken and its link has not acknowledged; one that another device has refused counts for its sender (R293). The source of a token that came
from another device is no core of this one. -/
def State.inFlight (s : State) (ctx die : Nat) : Bool :=
  (s.flow.net.any fun t => t.tok.ctx == ctx && (dieOf t.tok.core == die || (t.fromDev.isNone && dieOf t.srcCore == die)))
    || s.fabric.packets.any (s.carries ctx die)
    || (s.fabric.ports.any fun p => p.packets.any (s.carries ctx die))
    || (s.fabric.refused.any fun t => t.tok.ctx == ctx && dieOf t.srcCore == die)

/-- Whether a context's part of a die is quiet (R180). -/
def State.quiet (s : State) (ctx die : Nat) : Bool :=
  let on (core : Nat) : Bool := dieOf core == die
  let fids := (s.flow.firings.filter fun f => f.ctx == ctx && on f.core && s.waits f).map (·.id)
  !(s.flow.firings.any fun f => f.ctx == ctx && on f.core && !s.waits f && f.phase != Phase.sent)
    && !s.inFlight ctx die
    && !(s.msys.chest.any fun e => e.ctx == ctx && on e.core && !fids.contains e.fid)
    && (match s.ctx? ctx with
        | some x => x.phase == .resident && !(x.copies.any fun c => c.running && !c.ended && on (c.entry.extractLsb' 16 9).toNat)
        | none => false)
    && !(s.ctls.any fun c => c.owner == some ctx && on c.core && c.run == .running && c.wait == .none)

/-- Whether something of a context waits on a die (R14, R119, R180, R250, R272). A token that a full receive queue or full Drawers hold at
the ingress does not (log 74). -/
def State.stalled (s : State) (ctx die : Nat) : Bool :=
  let on (core : Nat) : Bool := dieOf core == die
  (s.flow.drawers.any fun d => d.ctx == ctx && on d.core)
    || (s.flow.cwait.any fun r => r.ctx == ctx && on r.core)
    || (s.flow.ready.any fun r => r.ctx == ctx && on r.core && match s.cctx? r.core ctx, s.ctx? ctx with
        | some y, some x => y.ebudget == 0 && x.erate == 0
        | _, _ => false)
    || (s.flow.reqs.any fun r => on r.core && match r.who with
        | .packet nt => nt.tok.ctx == ctx
        | .saveArea k => k == ctx
        | .firing _ | .psum _ => false)
    || (s.flow.firings.any fun f => f.ctx == ctx && on f.core && s.waits f)

/-- The dies of a partition. -/
def Ctx.dies (x : Ctx) : List Nat := (List.range 6).filter fun d => (maskCores x.part).any fun c => dieOf c == d

/-- A count of the deadlock detector. -/
def Ctx.stallCount (x : Ctx) (k : Nat) : Nat := ((x.stall.find? fun q => q.1 == k).map (·.2)).getD 0

/-- The counts after one more ck (R180, R285); they stand while `dolz` holds the context (R193). -/
def State.countStalls (s : State) (x : Ctx) : Ctx :=
  if x.watch.held.isSome then x
  else { x with stall := x.dies.flatMap fun d =>
      if s.quiet x.id d then
        [(d, if s.stalled x.id d then x.stallCount d + 1 else 0), (6 + d, x.stallCount (6 + d) + 1)]
      else [] }

/-- One ck passes: the detectors count, and the control cores may run again. -/
def State.nextCk (s : State) : State :=
  { s with ctxs := s.ctxs.map fun x => s.countStalls x, ck := (s.ck + 1) % 2^64, cursor := 0 }

/-- ENERGY_REFILL (R177): the last thing of a ck that is a multiple of 1,024, after its debits; the ck then ends. -/
def execEnergyRefill (s : State) : Host.Outcome State Fault Refusal :=
  if s.ck % 1024 = 0 then finish s s.refillAll.nextCk else finish s s

/-- Whether the deadlock detector of a context on a die has reached its window (R180). -/
def State.stallDue (s : State) (x : Ctx) (die : Nat) : Bool :=
  x.dies.contains die && decide (x.dlwin ≤ x.stallCount die)
    && x.dies.all fun d => d == die || (s.quiet x.id d && decide (64 ≤ x.stallCount (6 + d)))

/-- DATAFLOW_STALL_DETECT (R180): PEND[32] on every control core that the context owns. -/
def execDataflowStallDetect (ctx : Nat) (die : Nat) (s : State) : Host.Outcome State Fault Refusal :=
  match s.ctx? ctx with
  | none => finish s s
  | some x =>
    if s.stallDue x die = false then finish s s
    else
      let t := { s with ctls := s.ctls.map fun (c : Ctl) => if c.owner = some ctx then { c.setPend s.ck 16 with stallDie := die } else c }
      finish s (t.modCtx ctx fun x => { x with stall := x.stall.filter fun q => q.1 != die })

end Sys2Proof.Machine
end

