-- ==== Sys2Proof/Machine/Response.lean ====
section
/-! DEFINITION. The memory side of outstanding operations: responses and their capture (R135, R206, R287, R289), retire notices
(R288), barriers (R172, R190), counters (R254, R271 to R273), rings (R211, R247 to R250) and near-memory units (R265, R266). -/

namespace Sys2Proof.Machine

/-! ### Entries and their firings -/

/-- Whether the request of a firing has been issued, as far as its engine's stop shows: a pop, or an invocation, that waited for space as S
stopped asks for nothing before S goes on (R284). -/
def Firing.requested (f : Firing) : Bool :=
  f.phase == .working || (f.phase == .stopped && match f.job with
    | .pop _ _ | .invoke _ _ _ _ => f.busy == 0
    | _ => true)

/-- An issued entry that memory still holds, with its firing; none of a context that `dolz` holds (R193). -/
def State.pending? (s : State) (core ctx order : Nat) : Option (Chest × Firing) :=
  match s.chest? core ctx order with
  | some e =>
    if e.st = 0 ∧ s.held ctx = false then
      match s.firing? e.fid with
      | some f => if f.order = some order ∧ f.core = core ∧ f.ctx = ctx ∧ f.requested = true then some (e, f) else none
      | none => none
    else none
  | none => none

/-- The memory of a job's record, as a key of its recent-tag table (R288). -/
def ObjRec.bankKey (r : ObjRec) : Nat := Sys2Proof.Machine.bankKey r.base

/-- The bank has performed an operation: its result is recorded under the dedup tag of an I2 entry (R288). -/
def State.performed (s : State) (e : Chest) (bank : Nat) (w : Word) (ok poison : Bool) : State :=
  let s := s.modChest e.core e.ctx e.order fun c => { c with done := true, result := w, ok := ok, poison := poison }
  if e.cls = 2 ∧ (s.msys.tags.any fun t => t.dev.isNone && t.bank == bank && t.tag == e.dedup) = false then s.modMsys fun m => { m with tags := m.tags ++ [{ bank := bank, dev := none, tag := e.dedup, result := w, ok := ok, flags := 0 }] }
  else s

/-- The answer of an entry: it leaves the in-flight count, becomes answered or captured, and its firing has its results (R208,
R287, R289); `due` is when they may be sent. -/
def State.answer (s : State) (e : Chest) (f : Firing) (outs : List Out) (job : Job) (due : Nat) : State :=
  let st := if s.frozen e.core e.ctx then 2 else 1
  ((s.uncount e).modChest e.core e.ctx e.order fun c => { c with st := st, row := e.rows }).modFiring f.id fun g =>
    { g with outs := outs, job := job, due := due, phase := if job = .none then g.phase else .ready }

/-- Whether a section is sealed or about to be (R300). -/
def State.sealing (s : State) (ctx sect : Nat) : Bool :=
  s.isSealed ctx sect || (s.flow.seals.any fun q => q.1 == ctx && q.2.1 == sect)
    || ((s.ctx? ctx).any fun x => x.pendSeals.any fun q => q.1 == sect)

/-- A residency fault of an entry (R206, R289): it is dropped when its section seals (R300). -/
def State.absent (s : State) (e : Chest) (f : Firing) (block : Nat) : State :=
  if s.sealing f.ctx f.sect then s.failFiring f 3
  else
    let cause : HaltCause := { kind := 32, core := f.core, e := if e.eng = 3 then 4 else e.eng, slot := f.slot, handle := e.handle, gen := e.gen,
                               block := block, order := some e.order }
    (s.modChest e.core e.ctx e.order fun c => { c with st := 3 }).addCause f.ctx cause

/-- Give every output of a firing a scalar. -/
def allScalars (outs : List Out) (w : Word) (poison : Bool) : List Out := outs.map fun o => { o with val := .scalar w poison }

/-- Give the first output one scalar and the others another. -/
def twoScalars (outs : List Out) (w v : Word) (poison : Bool) : List Out :=
  outs.zipIdx.map fun q => { q.1 with val := .scalar (if q.2 = 0 then w else v) poison }

/-- The result of an atomic or an invocation of subgraph 0 to 4 (R245): ATCS sends a predicate to its second destination. -/
def atomOuts (op : Nat) (outs : List Out) (w : Word) (ok poison : Bool) : List Out :=
  outs.zipIdx.map fun q => { q.1 with val := if op = 4 ∧ q.2 = 1 ∧ !poison then .pred ok else .scalar w poison }

/-- Mark every tile output poison, also one that still waits for its space. -/
def poisonTiles (outs : List Out) : List Out :=
  outs.map fun o => { o with val := match o.val with
    | .tile d d1 _ => .tile d d1 true
    | .newTile d bs _ => .newTile d bs true
    | v => v }

/-- Give the tile outputs of a firing that still wait for their space their bytes (R12). -/
def fillNew (outs : List Out) (bs : List Byte) : List Out :=
  outs.map fun o => { o with val := match o.val with
    | .newTile d _ p => .newTile d bs p
    | v => v }

/-- Write a tile's planes into the tile outputs of a firing that have their space. -/
def State.fillTiles (s : State) (f : Firing) (bs : List Byte) : State :=
  f.outs.foldl (fun s o => match o.val with
    | .tile d _ _ => s.placeTile f.core (Desc.ofWords d 0) bs
    | _ => s) s

/-! ### Operations performed as they are answered -/

/-- The encoding of an element in its object's format (R37, R203). -/
def State.elemBits (s : State) (t : Access) (ps : List (Nat × Nat × Nat)) : Nat :=
  if t.obj.layout = 2 then (storeVal t.obj.fmt false .rne ((s.readElem t.handle t.obj ps).val t.obj.fmt)).1
  else s.readPiece t.handle t.obj.gen (ps.headD (0, 0, 0))

/-- An atomic update of one element (R245): the state, the old value, whether ATCS matched, the flags and poison. An old element
that is a signalling NaN sets NV as any element loaded (R37, R44). An element with
an uncorrectable ECC error stays as it is and gives poison (log 24). -/
def State.atomic (s : State) (t : Access) (op : Nat) (v : Word) (uns : Bool) (w : Word) (ps : List (Nat × Nat × Nat)) :
    State × Word × Bool × Flags × Bool :=
  if ps.any (s.pieceEcc t.handle t.obj.gen) then (s, 0, false, noFlags, true)
  else
    let mode := RM.ofCode t.mode
    let bits := s.elemBits t ps
    let was := s.readElem t.handle t.obj ps
    let (old, f0) := loadedWord t.obj.fmt mode was
    let (x, f1) := atomOperand t.obj.fmt v uns
    let (n, f2) := atomOperand t.obj.fmt w false
    let (b, ok, f3) := atomUpdate op t.obj.fmt t.obj.sat mode bits x n
    let nv := if was.nv then flagNV else noFlags
    (s.writeElem t.handle t.obj ps b, old, ok, ((((nv.or f0).or f1).or (if op = 4 then f2 else noFlags)).or f3).element, false)

/-- What another device answers to an atomic or an invocation: the old value, whether ATCS matched and the flags, as its packet says or
free (R245; log 21). -/
def State.oldAnswer (s : State) (old : Option (Word × Bool × Nat)) : State × Word × Bool × Flags :=
  match old with
  | some (w, ok, fl) => (s, w, ok, Flags.ofBits fl)
  | none => ({ s with free := s.free + 3 }, Config.freeWord s.free, (Config.freeWord (s.free + 1)).getLsbD 0,
      (Flags.ofBits (Config.freeWord (s.free + 2)).toNat).element)

/-- What a memory operation comes to: it must wait, it asks another device for its elements there, it meets an absent block, or it is
performed with its results. -/
inductive MemResult where
  | wait
  | ask (s : State)
  | absent (s : State) (block : Nat)
  | ok (s : State) (outs : List Out) (rows : Nat)

/-- Put elements into the tiles that a load makes, from element lo on. -/
def State.fillPart (s : State) (f : Firing) (t : Access) (lo : Nat) (es : List Loaded) : State :=
  let n := t.rows.length
  if lo = 0 ∧ es.length = n * t.cols then s.fillTiles f (loadedTile t.obj.fmt n t.cols es).bytes
  else
    let part := loadedTile t.obj.fmt n t.cols es
    let splice {α : Type} (old new : List α) : List α := old.take lo ++ (new ++ old.drop (lo + es.length))
    f.outs.foldl (fun s o => match o.val with
      | .tile d _ _ =>
        let k := Desc.ofWords d 0
        let old := readTile k (s.tileBytes f.core k)
        s.placeTile f.core k ({ old with elems := splice old.elems part.elems, ints := splice old.ints part.ints } : Tile).bytes
      | _ => s) s

/-- The cells that a store of elements lo to hi - 1 of a tile writes, and its scale. -/
def State.storedCells (s : State) (f : Firing) (t : Access) (lo hi : Nat) : List StoreCell :=
  let d := Desc.ofWords t.desc t.desc1
  (slice lo hi (tileCells t (readTile d (s.tileBytes f.core d)))).map (·.1)

/-- Elements lo to hi - 1 of a tile access are performed (R131, R132, R206, R223, R242, R243): the absent block that stops it, before
which what was written stays, or whether one read has an ECC error. -/
def State.runElements (s : State) (e : Chest) (f : Firing) (lo hi : Nat) : State × (Nat ⊕ Bool) :=
  match f.job with
  | .load t =>
    (match s.loadCells t e.got (slice lo hi t.cells) {} with
     | .error b => (s, .inl b)
     | .ok a =>
       let s := if a.nv then s.setFlags f.core f.ctx f.eng flagNV else s
       (if a.ecc then s else s.fillPart f t lo a.out.reverse, .inr a.ecc))
  | .store t =>
    let d := Desc.ofWords t.desc t.desc1
    (match s.storeTile t (readTile d (s.tileBytes f.core d)) e.got lo hi with
     | (u, fl, b) => (u.setFlags f.core f.ctx f.eng fl, match b with | some b => .inl b | none => .inr false))
  | _ => (s, .inr false)

/-- What a tile access asks of a device that holds some of its elements. -/
def State.tileAsk (s : State) (f : Firing) (t : Access) : PartAsk :=
  match f.job with
  | .store _ => { op := .write, cells := s.storedCells f t 0 (t.rows.length * t.cols), scale := (storeScale t.lit1).1 }
  | _ => { op := .read }

/-- Store scalars into the cells of an access, in order; those at another device go there first. -/
def State.runCells (s : State) (e : Chest) (f : Firing) (t : Access) (sc : Option Val) (fl : Flags) (vs : List Val) : MemResult :=
  let cs : List StoreCell := (t.cells.zip vs).map fun q => { row := q.1.1, col := q.1.2, val := q.2, orig := none }
  match s.firstAway e t true t.cells with
  | some (_, b, dev) => .ask (s.askPart e t b dev { op := .write, cells := cs, scale := sc })
  | none => match storeCells t sc e.got cs (s, fl) with
    | (s, fl, some b) => .absent (s.setFlags f.core f.ctx f.eng fl) b
    | (s, fl, none) => .ok (s.setFlags f.core f.ctx f.eng fl) f.outs 1

/-- The elements of a scalar read, or what they wait for. -/
def State.scalarRead (s : State) (e : Chest) (t : Access) : MemResult ⊕ LoadAcc :=
  match s.firstAway e t false t.cells with
  | some (_, b, dev) => .inl (.ask (s.askPart e t b dev { op := .read }))
  | none => match s.loadCells t e.got t.cells {} with
    | .error b => .inl (.absent s b)
    | .ok a => .inr a

/-- Perform an outstanding operation that is answered as it is performed (R133, R134, R226, R242 to R246, R273, R277, R279,
R312). -/
def State.runJob (s : State) (e : Chest) (f : Firing) : MemResult :=
  match f.job with
  | .scalarLoad t =>
    (match s.scalarRead e t with
     | .inl r => r
     | .inr a =>
       let x := a.out.headD {}
       let (w, fl) := loadedWord t.obj.fmt (RM.ofCode t.mode) x
       let fl := if a.nv then fl.or flagNV else fl
       if a.ecc then .ok s (allScalars f.outs 0 true) 1 else .ok (s.setFlags f.core f.ctx f.eng fl) (allScalars f.outs w false) 1)
  | .scalarStore t v asInt =>
    let (sc, f0) := storeScale t.lit1
    let (x, f1) := scalarVal t.obj.fmt v asInt
    s.runCells e f t sc (f0.or f1) [x]
  | .snapshot t bs => s.runCells e f t none noFlags (bs.map fun b => Val.ofInt b.toNat)
  | .completion t k =>
    (match s.scalarRead e t with
     | .inl r => r
     | .inr a =>
       let bs := a.out.reverse.map fun x => BitVec.ofInt 8 (x.val t.obj.fmt).toInt64.1
       let word (i : Nat) : Word := leWord ((bs.drop (8 * i)).take 8)
       .ok s (twoScalars f.outs (word 0) (word k) a.ecc) 1)
  | .counterRead h r i =>
    let a := s.readPlace h r.gen (r.base + 8 * i)
    .ok s (allScalars f.outs (s.readWord a) (s.eccHit a 8)) 1
  | .atomic t op _ v uns w =>
    (match t.cell 0 0 with
     | none => .wait
     | some x => match s.firstAway e t true t.cells, s.site t.obj true x with
       | some (_, b, dev), _ =>
         .ask (s.askPart e t b dev { op := .invoke op, v := if uns ∧ fmtIsFloat t.obj.fmt then encodeFp64 (Val.ofInt v.toNat) else v, w := w })
       | none, .absent b | none, .remote b _ => .absent s b
       | none, .at ps =>
         let bank := bankKey ((ps.headD (0, 0, 0)).1)
         if s.tagRoom bank then
           let (s, old, ok, fl, p) := s.atomic t op v uns w ps
           .ok ((s.performed e bank old ok p).setFlags f.core f.ctx f.eng fl) (atomOuts op f.outs old ok p) 1
         else .wait)
  | .fence scope => if scope = 6 ∧ s.benchBusy f.core f.ctx then .wait else .ok s f.outs 1
  | .chestWait =>
    (match (s.chestOf f.core f.ctx).head? with
     | some h => if h.order = e.order then .ok s f.outs 1 else .wait
     | none => .wait)
  | .launch ps =>
    if s.launchRoom f.ctx then .ok (s.queueLaunch f.ctx ps) (allScalars f.outs (s.launchId ps) false) 1 else .wait
  | _ => .wait

/-- The results of an operation that its bank has performed (R189, R190, R245, R248, R249, R254, R272, R274, R275). -/
def Firing.doneOuts (f : Firing) (e : Chest) : List Out :=
  match f.job with
  | .counterWait _ _ _ _ => f.outs.zipIdx.map fun q => if q.2 = 0 then q.1 else { q.1 with val := .scalar e.result false }
  | .push _ _ _ _ marker _ => if marker = 0 then allScalars f.outs e.result false else f.outs
  | .pop _ _ => f.outs
  | .invoke _ sub _ _ =>
    if 16 ≤ sub ∧ (f.outs.any fun o => match o.val with | .tile _ _ _ => true | _ => false) then
      (if e.poison then poisonTiles f.outs else f.outs)
    else atomOuts (if sub = 4 then 4 else 0) f.outs e.result e.ok e.poison
  | .atomic _ op _ _ _ _ => atomOuts op f.outs e.result e.ok e.poison
  | _ => allScalars f.outs e.result e.poison

/-- The elements of a remote answer from its bytes as they are packed (log 21). -/
def answerElems (r : ObjRec) (n : Nat) (bs : List Byte) : List Loaded := (r.wireElems n bs).map fun b => r.ofPieces (r.ofWire b)

/-- n free bytes (log 21). -/
def State.freeData (s : State) (n : Nat) : State × List Byte := ({ s with free := s.free + n }, freeBytes s.free n)

/-- The elements of a remote load, the pad where a cell lies outside the shape (R130, R339). -/
def placeElems (t : Access) : List (Int × Nat) → List Loaded → List Loaded
  | [], _ => []
  | c :: cs, es =>
    match t.cell c.1 c.2 with
    | none => t.padElem :: placeElems t cs es
    | some _ => es.headD {} :: placeElems t cs es.tail

/-- The Bench entry of a firing. -/
def State.benchFor (s : State) (f : Firing) : Option Bench := s.msys.bench.find? fun b => b.fid == f.id

/-- The data of a copy's source at another device arrive (R262): the copy keeps them for its rows; poison makes its write side raise
poison store. -/
def State.copyData (s : State) (f : Firing) (b : Bench) (k : Nat) (bs : List Byte) (poison : Bool) : State :=
  if poison then s.failCopy f.ctx k 5
  else ((s.freeBenchEntry b.core b.idx).removeFiring f.id).modCtx f.ctx fun x => { x with
    copies := x.copies.modify k fun c => { c with got := some bs } }

/-- The coordinates of a request's elements, in order. -/
def reqCoords (q : RemoteReq) : List (List Nat) :=
  q.rows.flatMap fun r => (List.range q.cols).map fun j => (q.x.set 0 (dim q.x 1 + j)).set 1 r

/-- Note the elements that a device holding their block has answered, with their data or with none (R206). -/
def State.noteGot (s : State) (b : Bench) (q : RemoteReq) (data : List (List Byte)) (poison : Bool) : State :=
  s.modChest b.core b.ctx b.order fun c => { c with
    got := c.got ++ ((reqCoords q).zipIdx.map fun x => { x := x.1, bytes := data.getD x.2 [], poison := poison }) }

/-- The device that holds a block has answered for its elements (R206, R344): the access goes on with them; of an atomic, with its result.
An entry whose access has ended is freed. -/
def State.partAnswer (s : State) (b : Bench) (q : RemoteReq) (data : Option (List Byte)) (old : Option (Word × Bool × Nat))
    (poison : Bool) : State :=
  let s := s.freeBenchOf b
  match q.op with
  | .invoke _ =>
    let (s, w, ok, fl) := s.oldAnswer old
    (s.setFlags b.core b.ctx .s fl).modChest b.core b.ctx b.order fun c => { c with done := true, result := w, ok := ok, poison := poison }
  | .write => if b.ticketed then s else s.noteGot b q [] false
  | .read => match s.obj? q.handle with
    | some r =>
      let n := (reqCoords q).length
      let (s, bs) := match data with
        | some bs => (s, bs)
        | none => s.freeData (n * r.wireSize)
      s.noteGot b q (r.wireElems n bs) poison
    | none => s

/-- The owner's data or acknowledgement reaches a Bench entry in state 0 or 3 (R344, R346, R352): a read's results are decoded; an
atomic's result stays in the Bench, its reference having been sent at the latest now, and its flags are S's (R245); a store has completed.
What the firing sends may go in the ck after. -/
def State.remoteAnswer (s : State) (e : Chest) (f : Firing) (b : Bench) (data : Option (List Byte)) (old : Option (Word × Bool × Nat))
    (poison : Bool) : State :=
  match f.job with
  | .load t | .scalarLoad t | .completion t _ =>
    let n := (t.cells.filter fun c => (t.cell c.1 c.2).isSome).length
    let (s, bs) := match data with
      | some bs => (s, bs)
      | none => s.freeData (n * t.obj.wireSize)
    if let some k := s.copyOf f then s.copyData f b k bs poison else
    let es := placeElems t t.cells (answerElems t.obj n bs)
    let nv := es.any (·.nv) && !poison
    let s := if nv then s.setFlags f.core f.ctx f.eng flagNV else s
    let s := s.freeBenchEntry b.core b.idx
    match f.job with
    | .load _ =>
      if poison then s.answer e f (poisonTiles f.outs) .none (s.ck + 1)
      else
        let bs := (loadedTile t.obj.fmt t.rows.length t.cols es).bytes
        (s.fillTiles f bs).answer e f (fillNew f.outs bs) .none (s.ck + 1)
    | .scalarLoad _ =>
      let (w, fl) := loadedWord t.obj.fmt (RM.ofCode t.mode) (es.headD {})
      let s := if poison then s else s.setFlags f.core f.ctx f.eng fl
      s.answer e f (allScalars f.outs (if poison then 0 else w) poison) .none (s.ck + 1)
    | .completion _ k =>
      let raw := es.map fun x => BitVec.ofInt 8 (x.val t.obj.fmt).toInt64.1
      let word (i : Nat) : Word := leWord ((raw.drop (8 * i)).take 8)
      s.answer e f (twoScalars f.outs (word 0) (word k) poison) .none (s.ck + 1)
    | _ => s
  | .snapshot _ _ =>
    match s.copyOf f with
    | some k =>
      -- A copy's writes are acknowledged by the other device (R227, R262).
      ((s.freeBenchEntry b.core b.idx).removeFiring f.id).modCtx f.ctx fun x => { x with
        copies := x.copies.modify k fun c => { c with written := true } }
    | none =>
      let s := s.freeBenchOf b
      if e.st = 0 then s.answer e f f.outs .none (s.ck + 1) else s
  | .atomic _ _ _ _ _ _ | .invoke _ _ _ _ =>
    let (s, w, ok, fl) := s.oldAnswer old
    let s := s.setFlags f.core f.ctx f.eng fl
    let s := (s.modBench b.core b.idx fun b => { b with st := 4, result := w, ok := ok }).benchAnswered b.core b.ctx
    if e.st = 0 then s.answer e f (allScalars f.outs b.ref false) .none (s.ck + 1) else s
  | _ =>
    let s := s.freeBenchOf b
    if e.st = 0 then s.answer e f f.outs .none (s.ck + 1) else s

/-- The answer of another device to the entry of a Chest order (R344): it is dropped where the Bench entry is gone or saved. -/
def State.takeAnswer (s : State) (core ctx order : Nat) (data : Option (List Byte)) (old : Option (Word × Bool × Nat)) (poison : Bool) : State :=
  match s.msys.bench.find? fun b => b.core == core && b.ctx == ctx && b.order == order && (b.st == 0 || b.st == 3) with
  | none => s
  | some b =>
    match b.part, s.chest? core b.ctx order, s.firing? b.fid with
    | some q, _, _ => s.partAnswer b q data old poison
    | none, some e, some f => s.remoteAnswer e f b data old poison
    | none, _, _ => s

/-- The ck after which a response's results may go (R135, R251): a pop's rows take one ck each. -/
def Firing.answerTime (f : Firing) (rows : Nat) : Nat :=
  match f.job with
  | .pop _ _ => rows
  | .fence _ | .chestWait | .launch _ => 0
  | _ => 1

/-- The writes of a copy that has moved every row are acknowledged (R262): its Chest entry retires, or is captured (R289). -/
def State.copyAnswer (s : State) (core ctx order : Nat) : State :=
  match s.chest? core ctx order, s.ctx? ctx with
  | some e, some x =>
    match x.copies[e.arg.toNat]? with
    | some c =>
      if x.watch.held.isSome then s else if e.kind = 17 ∧ e.st = 0 ∧ c.written = true ∧ c.dstOrder = order then
        if s.frozen core ctx then (s.uncount e).modChest core ctx order fun e => { e with st := 2 }
        else s.retireChest core ctx order
      else s
    | none => s
  | _, _ => s

/-- The access of a load or store of a tile. -/
def Job.tile? : Job → Option Access
  | .load t | .store t => some t
  | _ => Option.none

/-- The columns of a tile access. -/
def Job.cols (j : Job) : Nat := (j.tile?.map (·.cols)).getD 1

/-- Memory performs a tile access up to its element hi, each element by itself (R127, R223), or up to the first that another device must
supply or take first (R206). ROW counts the whole rows; when the rows
that the access comes to are all answered, its results may go in the ck after its last of occupancy (R135), and a frozen entry whose
issued rows are all answered is captured (R289). -/
def State.tileResponse (s : State) (e : Chest) (f : Firing) (hi : Nat) : State :=
  let c := f.job.cols
  let t? := f.job.tile?
  let away := t?.bind fun t => s.firstAway e t (f.job == .store t) (slice e.cell hi t.cells)
  let hi := away.elim hi fun q => e.cell + q.1
  let ask (s : State) : State := match t?, away with
    | some t, some (_, b, dev) => s.askPart e t b dev (s.tileAsk f t)
    | _, _ => s
  if hi ≤ e.cell ∧ hi < f.goalRows * c then ask s
  else match s.runElements e f e.cell hi with
    | (s, .inl b) => s.absent e f b
    | (s, .inr p) =>
      let e := { e with cell := hi, row := hi / c, poison := e.poison || p }
      let s := ask (s.modChest e.core e.ctx e.order fun _ => e)
      if f.goalRows * c ≤ hi then
        s.answer { e with rows := e.row } f (if e.poison then poisonTiles f.outs else f.outs) .none (max s.ck f.due)
      else if s.frozen e.core e.ctx ∧ s.issuedRows f * c ≤ hi then s.modChest e.core e.ctx e.order fun e => { e with st := 2 }
      else s

/-- Memory performs the next n elements of a tile access among its issued rows (R127, R223). -/
def State.performElements (s : State) (core ctx order n : Nat) : State :=
  match s.pending? core ctx order with
  | some (e, f) =>
    if f.job.tile?.isSome ∧ e.owner = s.devId then s.tileResponse e f (min (e.cell + n) (s.issuedRows f * f.job.cols)) else s
  | none => s

/-- Whether the rows that a pop received still need a generator to take them in (R251): none is free. -/
def State.popWaits (s : State) (e : Chest) (f : Firing) : Bool :=
  match f.job with
  | .pop _ _ => e.done && !s.generatorFree f.core
  | _ => false

/-- The Bench entry whose answer an access waits for: that of a block at another device, unless it is a store that has a ticket and so has
completed there (R230, R344), or the firing's own. -/
def State.awaits (s : State) (e : Chest) (f : Firing) : Option Bench :=
  match s.partOf e with
  | some b => if b.ticketed ∧ (b.part.any fun q => q.op == .write) = true then none else some b
  | none => s.benchFor f

/-- MEMORY_RESPONSE_ARRIVAL (R206, R287, R289, R344): the entry's operation is performed, if its bank has not done it before, and
answered; of a tile, the rows issued so far. On an entry for another device's object it is that device's answer, with values of its
own (log 21). -/
def execMemoryResponseArrival (core : Nat) (ctx : Nat) (order : Nat) (s : State) : Host.Outcome State Fault Refusal :=
  match s.pending? core ctx order with
  | none =>
    -- A replayed atomic whose reference has been sent, and a copy's writes, have no firing to answer.
    match s.msys.bench.find? fun b => b.core == core && b.ctx == ctx && b.order == order && (b.st == 0 || b.st == 3) with
    | some _ => if s.held ctx then finish s s else finish s (s.takeAnswer core ctx order none none false)
    | none => finish s (s.copyAnswer core ctx order)
  | some (e, f) =>
    match s.awaits e f with
    | some b => if b.st = 0 ∨ b.st = 3 then finish s (s.takeAnswer core ctx order none none false) else finish s s
    | none =>
      if s.popWaits e f then finish s s
      else if e.done then
        let t := s.answer e f (f.doneOuts e) .none (s.ck + f.answerTime e.rows)
        match f.job with
        | .hub h publ =>
          if publ ∧ (s.msys.hub.any fun q => q.fid == some f.id) then
            finish s (s.answer e f (f.doneOuts e) (.hub h publ) s.ck)
          else finish s t
        | _ => finish s t
      else if f.job.tile?.isSome then finish s (s.tileResponse e f (s.issuedRows f * f.job.cols))
      else match s.runJob e f with
        | .wait => finish s s
        | .ask t => finish s t
        | .absent t b => finish s (t.absent e f b)
        | .ok t outs rows => finish s (t.answer { e with rows := rows } f outs .none (s.ck + f.answerTime rows))

/-- RETIRE_NOTICE (R288): the n-th notice reaches its bank. -/
def execRetireNotice (n : Nat) (s : State) : Host.Outcome State Fault Refusal :=
  match s.msys.retires[n]? with
  | none => finish s s
  | some (bank, tag) =>
    finish s (s.modMsys fun m => { m with
      retires := m.retires.eraseIdx n
      tags := m.tags.filter fun t => !(t.dev.isNone && t.bank == bank && t.tag == tag) })

/-! ### Barriers and counters -/

/-- An entry that its bank has not performed yet, with its firing. -/
def State.unperformed? (s : State) (core ctx order : Nat) : Option (Chest × Firing) :=
  match s.pending? core ctx order with
  | some (e, f) => if e.done then none else some (e, f)
  | none => none

/-- Whether a core is a member of a group of a context (R170). -/
def State.member (s : State) (ctx grp core : Nat) : Bool :=
  match (s.ctx? ctx).bind fun x => x.groups.find? fun g => g.1 == grp with
  | some (_, m) => m.getLsbD core
  | none => false

/-- Whether a context's group entry is valid (R170). -/
def State.groupValid (s : State) (ctx grp : Nat) : Bool := (s.ctx? ctx).any fun x => x.groups.any fun g => g.1 == grp

/-- BARRIER_ARRIVAL_PERFORM (R170, R172, R189): a barrier whose group entry is not valid raises group. An
uncorrectable error in the barrier's bytes is not looked at (log 92). -/
def execBarrierArrivalPerform (core : Nat) (ctx : Nat) (order : Nat) (s : State) : Host.Outcome State Fault Refusal :=
  match s.unperformed? core ctx order with
  | none => finish s s
  | some (e, f) =>
    match f.job with
    | .barrierArrive h r =>
      let a := s.readPlace h r.gen r.base
      let arr := s.readNat a 4
      let exp := s.readNat (a + 4) 4
      let gen := s.readNat (a + 8) 4
      let grp := s.readNat (a + 12) 1
      if s.tagRoom r.bankKey = false then finish s s
      else if s.groupValid ctx grp = false then finish s (s.failFiring f 12)
      else if s.member ctx grp core = false then finish s (s.failFiring f 14)
      else
        let full := (arr + 1) % 2^32 = exp
        let t := s.writeObj h r.gen r.base
          (leBytes 4 (if full then 0 else arr + 1) ++ leBytes 4 exp ++ leBytes 4 (if full then gen + 1 else gen))
        finish s (t.performed e r.bankKey (BitVec.ofNat 64 gen) true false)
    | _ => finish s s

/-- BARRIER_WAIT_ANSWER (R170, R172, R190); an error in the barrier's bytes is not looked at (log 92). -/
def execBarrierWaitAnswer (core : Nat) (ctx : Nat) (order : Nat) (s : State) : Host.Outcome State Fault Refusal :=
  match s.unperformed? core ctx order with
  | none => finish s s
  | some (e, f) =>
    match f.job with
    | .barrierWait h r g =>
      let a := s.readPlace h r.gen r.base
      let gen := s.readNat (a + 8) 4
      if s.groupValid ctx (s.readNat (a + 12) 1) = false then finish s (s.failFiring f 12)
      else if gen = g then finish s s else finish s (s.performed e r.bankKey (BitVec.ofNat 64 gen) true false)
    | _ => finish s s

/-- COUNTER_ADD_PERFORM (R254, R262, R271): a CNADD's or a copy's add. -/
def execCounterAddPerform (core : Nat) (ctx : Nat) (order : Nat) (s : State) : Host.Outcome State Fault Refusal :=
  match s.unperformed? core ctx order with
  | some (e, f) =>
    (match f.job with
     | .counterAdd h r i v =>
       if s.tagRoom r.bankKey = false then finish s s
       else match s.addCounter h r i v with
         | none => finish s (s.failFiring f 16)
         | some (t, old) => finish s (t.performed e r.bankKey (BitVec.ofNat 64 old) true false)
     | _ => finish s s)
  | none =>
    match s.chest? core ctx order, s.ctx? ctx with
    | some e, some x =>
      if e.kind ≠ 18 ∨ e.st ≠ 0 ∨ e.done = true ∨ s.held ctx = true then finish s s
      else
        let k := e.arg.toNat
        (match x.copies[k]?, s.obj? e.handle with
         | some c, some r =>
           let i := (c.entry.extractLsb' 472 24).toNat
           let add := (c.entry.extractLsb' 46 18).toNat
           let rows := (c.entry.extractLsb' 34 6).toNat
           let cols := (c.entry.extractLsb' 40 6).toNat
           let fmt := (c.dst.map fun t => t.obj.fmt).getD 0
           let v := if add = 0 then declaredBytes fmt (if rows = 0 then 64 else rows) (if cols = 0 then 64 else cols) else add
           if s.tagRoom r.bankKey = false then finish s s
           else match s.addCounter e.handle r i v with
             | none => finish s (s.failCopy ctx k 16)
             | some (t, old) => finish s (t.performed e r.bankKey (BitVec.ofNat 64 old) true false)
         | _, _ => finish s s)
    | _, _ => finish s s

/-- COUNTER_WAIT_SATISFIED (R254, R272). -/
def execCounterWaitSatisfied (core : Nat) (ctx : Nat) (order : Nat) (s : State) : Host.Outcome State Fault Refusal :=
  match s.unperformed? core ctx order with
  | none => finish s s
  | some (e, f) =>
    match f.job with
    | .counterWait h r is target =>
      let vs := is.map fun i => s.readNat (s.readPlace h r.gen (r.base + 8 * i)) 8
      if vs.all fun v => decide (target ≤ v) then
        finish s (s.performed e r.bankKey (BitVec.ofNat 64 (vs.min?.getD 0)) true false)
      else finish s s
    | _ => finish s s

/-! ### Rings -/

/-- The bits of elements packed low first, as bytes of a slot (R203, R248). -/
def packElems (z size : Nat) (xs : List Nat) : List Byte :=
  leBytes size (xs.foldr (fun x a => x % 2^z + a * 2^z) 0)

/-- The n elements of z bits each of a slot's bytes. -/
def unpackElems (z : Nat) : Nat → Nat → List Nat
  | 0, _ => []
  | n + 1, v => v % 2^z :: unpackElems z n (v / 2^z)

/-- Whether an earlier push (kind 7) or pop (kind 8) of the same ring waits at its bank (R211). Those of several cores
reach it in the order in which their Chest entries were made (log 86). -/
def State.ringBehind (s : State) (e : Chest) : Bool :=
  match s.msys.chest.findIdx? fun c => c.core == e.core && c.ctx == e.ctx && c.order == e.order with
  | some i => (s.msys.chest.take i).any fun c => c.handle == e.handle && c.kind == e.kind && c.st == 0 && !c.done
  | none => false

/-- The bytes and slot word that a push writes, with its flags (R248): rows·cols elements, of a complex tile the real parts
(log 58), and 0 in every other byte of the slot. -/
def State.pushData (s : State) (f : Firing) (r : ObjRec) (desc desc1 : Word) (marker mode : Nat) : List Byte × Nat × Flags :=
  let size := dim r.shape 1
  if marker ≠ 0 then (List.replicate size 0, marker, noFlags)
  else
    let d := Desc.ofWords desc desc1
    let xs := ((readTile d (s.tileBytes f.core d)).vals.take (d.rows * d.cols)).map fun v => storeVal r.fmt r.sat (RM.ofCode mode) v
    (packElems (fmtBits r.fmt) size (xs.map (·.1)), d.cols * 2^11 + d.rows * 2^4, unionFlags (xs.map (·.2)))

/-- A push, if the ring has room (R211, R247, R248): the payload is TAIL before it. -/
def State.runPush (s : State) (e : Chest) (f : Firing) (h : Nat) (r : ObjRec) (desc desc1 : Word) (marker mode : Nat) : Option State :=
  let n := dim r.shape 2
  let size := dim r.shape 1
  let rd (o : Nat) : Nat := s.readNat (s.readPlace h r.gen (r.base + o)) 8
  let head := rd 0
  let tail := rd 8
  if (tail + 2^64 - head) % 2^64 = n then none
  else
    let i := tail % n
    let (bs, w, fl) := s.pushData f r desc desc1 marker mode
    let s := s.writeObj h r.gen (r.base + 64 + i * size) bs
    let s := s.writeObj h r.gen (r.base + 64 + n * size + 8 * i) (leBytes 8 w)
    let s := s.writeObj h r.gen (r.base + 8) (leBytes 8 (tail + 1))
    some ((s.setFlags f.core f.ctx f.eng fl).performed e r.bankKey (BitVec.ofNat 64 tail) true false)

/-- A pop, if the ring holds a slot (R176, R211, R249): a data slot becomes a tile at the start of the firing's run; a marker
returns the run. -/
def State.runPop (s : State) (e : Chest) (f : Firing) (h : Nat) (r : ObjRec) : Option State :=
  let n := dim r.shape 2
  let size := dim r.shape 1
  let at_ (o : Nat) : Nat := s.readPlace h r.gen (r.base + o)
  let head := s.readNat (at_ 0) 8
  let tail := s.readNat (at_ 8) 8
  if head = tail then none
  else
    let i := head % n
    let w := s.readNat (at_ (64 + n * size + 8 * i)) 8
    let data := at_ (64 + i * size)
    let rows := w / 2^4 % 128
    let cols := w / 2^11 % 128
    let ecls := ((s.slot? f.core f.ctx f.eng f.slot).map (·.ecls)).getD 0
    let s1 := s.writeObj h r.gen (r.base) (leBytes 8 (head + 1))
    let outWith (s : State) (v : OutVal) (col : Nat) (tag : BitVec 32) : State := s.modFiring f.id fun g =>
      { g with outs := g.outs.map fun o => { o with val := v, col := col, tag := tag } }
    let s2 : State :=
      if w % 4 = 0 then
        let poison := s.eccHit data (declaredBytes r.fmt rows cols)
        let es := (unpackElems (fmtBits r.fmt) (rows * cols) (leNat (s.read data size))).map (loadBits r.fmt)
        let tl := loadedTile r.fmt rows cols es
        let s1 := s1.modCctx f.core f.ctx fun y => y.debit ((rows - 1) * classUnits ecls)
        let s1 := if es.any (·.nv) ∧ !poison then s1.setFlags f.core f.ctx f.eng flagNV else s1
        let (s1, d) := s1.runTile f (tl.desc poison)
        let d := d.getD (tl.desc poison)
        let s1 := if poison then s1 else s1.placeTile f.core (Desc.ofWords d 0) tl.bytes
        let s1 := s1.modChest e.core e.ctx e.order fun c => { c with rows := max 1 rows }
        outWith s1 (.tile d 0 poison) f.outCol f.outTag
      else
        let s1 := match f.psum with
          | some a => (s1.release f.core a).modFiring f.id fun g => { g with psum := none }
          | none => s1
        if w % 4 = 1 then outWith s1 .eos f.outCol f.outTag else outWith s1 .errorEos f.col f.tag
    some (s2.performed e r.bankKey (BitVec.ofNat 64 w) true false)

/-- RING_OP_PERFORM (R211, R247 to R250): pushes, and pops, are served in the order they reached the bank. -/
def execRingOpPerform (core : Nat) (ctx : Nat) (order : Nat) (s : State) : Host.Outcome State Fault Refusal :=
  match s.unperformed? core ctx order with
  | none => finish s s
  | some (e, f) =>
    match f.job with
    | .push h r desc desc1 marker mode =>
      if s.ringBehind e ∨ s.tagRoom r.bankKey = false then finish s s
      else finish s ((s.runPush e f h r desc desc1 marker mode).getD s)
    | .pop h r =>
      if s.ringBehind e ∨ s.tagRoom r.bankKey = false then finish s s
      else finish s ((s.runPop e f h r).getD s)
    | _ => finish s s

/-! ### Near-memory units -/

/-- The place of an invocation's element (R266). -/
def State.invoked (s : State) (t : Access) : Option Site := (t.cell 0 0).map (s.site t.obj true)

/-- The HBM stack of an invocation's element. -/
def State.invokedStack (s : State) (t : Access) : Option Nat :=
  match s.invoked t with
  | some (.at ps) => match bankOf (s.readPlace t.handle t.obj.gen (ps.headD (0, 0, 0)).1) with
    | some (.hbm k) => some k
    | _ => none
  | _ => none

/-- What a subgraph makes of the 512 bytes, aligned where they lie now, that hold the element at a (R208, R266; log 20): its scalar
and its elements. The bytes change at both places of a relocation, those outside the object only where they lie. -/
def State.subgraph (s : State) (t : Access) (sub : Nat) (v w : Word) (a : Nat) : State × Word × List (BitVec 80) :=
  let at_ := s.readPlace t.handle t.obj.gen a
  let base := at_ / 512 * 512
  let (bs, r, es) := Config.nmSubgraph sub (s.read base 512) (at_ - base) v w
  let bs := padTo 512 bs
  let s := s.write base bs
  (match s.reloc? t.handle t.obj.gen with
   | some q =>
     if q.flipped then s
     else
       let mirrored (i : Nat) : Bool :=
         decide (q.oldBase ≤ base + i ∧ base + i < q.oldBase + q.bytes ∧ (base + i - q.oldBase) / q.unit < q.next)
       (bs.zipIdx).foldl (fun s (b, i) => if mirrored i then s.write (q.move (base + i)) [b] else s) s
   | none => s, r, es)

/-- Subgraph 16 to 63 on the aligned 512 bytes that hold an element (R265, R266; log 20). -/
def State.runSubgraph (s : State) (f : Firing) (t : Access) (sub : Nat) (v w : Word) (a : Nat) : State × Word :=
  let (s, r, es) := s.subgraph t sub v w a
  let n := min 64 (Config.nmColumns sub)
  let vs := (es.take n ++ List.replicate (n - es.length) 0).map fun x => (decodeXf x).1
  (s.fillTiles f (xfTile 1 n vs).bytes, r)

/-- An invocation that reaches its unit (R265, R266, R275). One of a subgraph whose 512 bytes hold an uncorrectable error performs nothing and
answers poison (R282; log 24). -/
def State.runInvoke (s : State) (e : Chest) (f : Firing) (t : Access) (sub : Nat) (v w : Word) (ps : List (Nat × Nat × Nat)) : State :=
  let a := (ps.headD (0, 0, 0)).1
  if sub < 5 then
    let (s, old, ok, fl, p) := s.atomic t sub v false w ps
    (s.performed e (bankKey a) old ok p).setFlags f.core f.ctx f.eng fl
  else if s.eccHit (s.readPlace t.handle t.obj.gen a / 512 * 512) 512 then s.performed e (bankKey a) 0 false true
  else
    let (s, r) := s.runSubgraph f t sub v w a
    s.performed e (bankKey a) r true false

/-- An invocation on this device's object that has not been performed: its entry, firing, access, subgraph and operands. -/
structure Invocation where
  e : Chest
  f : Firing
  t : Access
  sub : Nat
  v : Word
  w : Word

/-- The invocation of a Chest entry, if it has one to be performed. -/
def State.invocation? (s : State) (e : Chest) : Option Invocation :=
  match s.unperformed? e.core e.ctx e.order with
  | some (e, f) => match f.job with
    | .invoke t sub v w => if t.obj.owner = s.devId then some { e := e, f := f, t := t, sub := sub, v := v, w := w } else none
    | _ => none
  | none => none

/-- The block of an invocation's element and the device that holds it, or is asked for it (R206). -/
def State.invokedAway (s : State) (q : Invocation) : Option (Nat × Nat) :=
  (s.firstAway q.e q.t true q.t.cells).map fun r => (r.2.1, r.2.2)

/-- Whether the device that holds the element of an invocation can be asked for it now (R206, R343). -/
def State.asksAway (s : State) (q : Invocation) : Bool :=
  (s.invokedAway q).isSome && (s.partOf q.e).isNone && s.lineLow q.e.ctx && (freeBench (s.benchOf q.e.core)).isSome

/-- Whether an invocation has come to the unit of a stack (R266): its element lies there. One whose element lies in no stack, or whose block is
absent, is found out at any unit (log 95). -/
def State.atUnit (s : State) (stack : Nat) (q : Invocation) : Bool :=
  (s.invokedAway q).isNone && match s.invoked q.t with
    | some (.at _) => s.invokedStack q.t == some stack || s.invokedStack q.t == none
    | some _ => true
    | none => false

/-- NEAR_MEMORY_INVOCATION (R206, R266): an invocation whose element another device holds is sent there, and waits at no unit of this one; else
the oldest whose element lies in the stack is performed, or one whose block is absent faults. Those of several cores have arrived in the order
in which their Chest entries were made (log 86). One whose element turns out to lie elsewhere raises object access (log 95). -/
def execNearMemoryInvocation (stack : Nat) (s : State) : Host.Outcome State Fault Refusal :=
  let qs := s.msys.chest.filterMap s.invocation?
  match (qs.find? s.asksAway).bind fun q => (s.invokedAway q).map fun r => (q, r) with
  | some (q, b, dev) => finish s (s.askPart q.e q.t b dev { op := .invoke q.sub, v := q.v, w := q.w })
  | none => match qs.find? (s.atUnit stack) with
    | none => finish s s
    | some q => match s.invoked q.t with
      | some (.absent b) | some (.remote b _) => finish s (s.absent q.e q.f b)
      | some (.at ps) =>
        if s.invokedStack q.t = none then finish s (s.failFiring q.f 3)
        else if s.tagRoom stack = false then finish s s
        else finish s (s.runInvoke q.e q.f q.t q.sub q.v q.w ps)
      | none => finish s s

end Sys2Proof.Machine
end

