-- ==== Sys2Proof/Machine/Halt.lean ====
section
/-! DEFINITION. Halts and containment: the halt line (R283 to R285), service and refusal (R290), saving and restoring (R291 to
R296), seals (R297 to R300), finished sections (R161, R162) and lost contexts (R302). -/

namespace Sys2Proof.Machine

/-! ### The halt line -/

/-- Whether every core of a context holds it again (R296). -/
def State.allBack (s : State) (ctx : Nat) : Bool := (s.cores.filter fun y => y.ctx == ctx).all fun y => !y.saved

/-- HALT_LINE_RISE (R283); not while `dolz` holds the context (R193). -/
def execHaltLineRise (ctx : Nat) (s : State) : Host.Outcome State Fault Refusal :=
  match s.ctx? ctx with
  | some x =>
    if x.phase = .resident ∧ x.causes ≠ [] ∧ x.watch.held = none then finish s (s.modCtx ctx fun x => { x with phase := .halting })
    else finish s s
  | none => finish s s

/-- PRE_EMPTION_REQUEST (R160, R283): a cause of the halt, whose line HALT_LINE_RISE raises; while the line is up it joins the halt. A
context that is being saved for a pre-emption, or has been, joins nothing. -/
def execPreEmptionRequest (ctx : Nat) (s : State) : Host.Outcome State Fault Refusal :=
  match s.ctx? ctx with
  | some x =>
    if s.serves .faults ∧ (x.phase = .resident ∨ x.phase = .halting ∨ x.phase = .halted ∨ x.phase = .restoring) then
      finish s (s.addCause ctx { kind := 35, core := 0, e := 5, slot := 0, handle := 0, gen := 0, block := 0, order := none })
    else finish s s
  | none => finish s s

/-- The reason of a halt's stops (R308): 5 for DHLD, else 0. -/
def Ctx.haltReason (x : Ctx) : Nat := if x.causes.any fun c => c.kind == 0 then 5 else 0

/-- The fault that a stopped engine records (R308): one it raised, else a pre-emption. -/
def Ctx.stopCause (x : Ctx) (core e : Nat) : Option HaltCause :=
  match x.causes.find? fun c => c.core == core && c.e == e && decide (32 ≤ c.kind) with
  | some c => some c
  | none => x.causes.find? fun c => c.kind == 35

/-- Whether an engine performs a firing itself now (R284, R308): it waits for space, it is M's product, its rows are not all issued, or it
has not ended and waits for nothing but its own time. One whose operation is outstanding elsewhere is not the engine's any more. -/
def State.performs (s : State) (f : Firing) : Bool :=
  f.phase == .waitSpace || match f.job with
    | .mma _ _ _ _ _ _ => true
    | .load _ | .store _ => f.genHeld && decide (s.issuedRows f < f.goalRows)
    | .none => f.order.isNone && !s.behindInOrder f
    | _ => f.phase == .working && decide (s.ck < f.busy)

/-- The firing of a context that an engine holds (R308): FORK, which sends copies; else the oldest that the engine performs itself; else of
S the oldest that keeps a generator for its answers (log 73). None of an engine that only waits for operations outstanding elsewhere. -/
def State.heldFiring (s : State) (core ctx e : Nat) : Option Firing :=
  let mine (f : Firing) : Bool := f.core == core && f.ctx == ctx && engCode f.eng == e
    && (f.phase == .working || f.phase == .waitSpace || f.phase == .stopped)
  let first (p : Firing → Bool) : Option Firing := s.flow.firings.find? fun f => mine f && p f
  ((first Firing.forks).or (first s.performs)).or (first fun f => f.genHeld && f.job.holdsGen)

/-- The rows of the largest tile that a firing makes. -/
def Firing.madeRows (f : Firing) : Nat :=
  (f.outs.map fun o => match o.val with
    | .tile d _ _ | .newTile d _ _ => (Desc.ofWords d 0).rows
    | _ => 0).foldl max 0

/-- The rows of the largest tile that a V firing reads, or the 64-element groups of TOPK's (R143). -/
def Firing.readRows (f : Firing) : Nat :=
  (f.toks.map fun t =>
    if t.isTile = false then 0 else if f.op = 0x72 then (t.desc.rows * t.desc.cols + 63) / 64 else t.desc.rows).foldl max 0

/-- The units of a V firing's progress index (R143): rows of its largest tile, operand or result, or the 64-element groups of TOPK. -/
def Firing.tileRows (f : Firing) : Nat := if f.op = 0x72 then f.readRows else max f.readRows f.madeRows

/-- Whether an opcode is a vector operator of V (R142). -/
def isVectorOp (op : Nat) : Bool := decide (0x48 ≤ op ∧ op ≤ 0x7F)

/-- The rows that V does at a time, and in how many ck (R142; log 90). -/
def vRate (op : Nat) : Nat × Nat :=
  if op = 0x4D ∨ op = 0x4E then (1, 1) else if (0x4F ≤ op ∧ op ≤ 0x55) ∨ op = 0x73 then (2, 1) else if op = 0x7C then (4, 2) else (4, 1)

/-- The rows that the occupancy of a V firing is counted by (R142): of a reduction, TOPK and TTRN those of the largest tile, else those of the
result. -/
def Firing.workRows (f : Firing) : Nat :=
  if (0x6D ≤ f.op ∧ f.op ≤ 0x72) ∨ f.op = 0x75 ∨ f.madeRows = 0 then f.tileRows else f.madeRows

/-- The ck before the first row of its largest tile: TTRN reads all of its operand before a result that is no smaller (R142; log 90). -/
def Firing.lead (f : Firing) : Nat := if f.op = 0x75 ∧ f.readRows ≤ f.madeRows then (f.readRows + 3) / 4 else 0

/-- The ck that a V firing has spent on its rows so far. -/
def State.vTime (s : State) (f : Firing) : Nat := f.occ - (f.due - s.ck) - f.lead

/-- The rows that a V firing has done (R142, R143; log 90). -/
def State.vRows (s : State) (f : Firing) : Nat := min f.workRows ((vRate f.op).1 * (s.vTime f / (vRate f.op).2))

/-- Whether an engine is within a row of a V firing of a context, and stops at the next boundary (R143, R284). -/
def State.midRow (s : State) (core ctx e : Nat) (f : Firing) : Bool :=
  f.core == core && f.ctx == ctx && engCode f.eng == e && isVectorOp f.op && f.phase == Phase.working && decide (s.vRows f < f.workRows)
    && s.vTime f % (vRate f.op).2 != 0

/-- The progress index of a firing (R143, R188, R284): the rows whose requests have been issued, FORK's copies, or a V firing's rows, all
those of its largest tile once it has done its own. -/
def State.progress (s : State) (f : Firing) : Nat :=
  if f.forks || f.phase == Phase.stopped || f.phase == Phase.waitSpace then f.prog
  else
    match f.job with
    | .load _ | .store _ => s.issuedRows f
    | .mma _ _ _ _ _ _ => f.prog
    | _ => if isVectorOp f.op then (if s.vRows f = f.workRows then f.tileRows else s.vRows f) else f.prog

/-- Where M stops a product with R ck to go (R125, R284): the k-groups that remain whole, the passes done of an open group, and
the ck that remain. -/
def mmaStop (op : Nat) (da db : Desc) (left : Nat) : Nat × Nat × Nat :=
  let (_, k, _) := mmaDims op da db
  let half := decide (op = 7 ∨ op = 8)
  let passes := if half then da.p else (if op = 5 ∨ op = 6 then 4 else 1) * da.p * db.p
  let groups := ceilDiv k 32
  let step (n : Nat) : Nat := ceilDiv n (if half then 8 else 4)
  let gt := passes * step 32
  let last := k - 32 * (groups - 1)
  let time (j : Nat) : Nat := if j = 0 then 0 else passes * step last + (j - 1) * gt
  let whole := ((List.range (groups + 1)).filter fun j => decide (time j ≤ left)).max?.getD 0
  if 400 < gt ∧ whole < groups then
    let u := if whole = 0 then step last else step 32
    let pl := (left - time whole) / u
    if pl = 0 then (whole, 0, time whole) else (whole, passes - pl, time whole + pl * u)
  else (whole, 0, time whole)

/-- M stops a context's firing of the MMA family at a k-group boundary, or at a pass boundary where a group takes more than 400
ck, and records its continuation block (R125, R284, R309); a swap in progress completes first. The partial sums of an open group go
to the granules it holds, in an encoding of their own (log 14). A product with no group left is stopped at its last boundary; one whose
block already waits for MCONT keeps it, and one that waits for space, or has not begun since, has no block yet. -/
def State.stopM (s : State) (f : Firing) : State × Nat :=
  let area := (s.cctx? f.core f.ctx).bind (·.area)
  match f.job, s.slot? f.core f.ctx f.eng f.slot with
  | .mma op set groups _ _ _, some sl =>
    let o := wordFields sl.word
    match f.tok o.srcA, f.tok o.srcB with
    | some a, some b =>
      if ((s.cctx? f.core f.ctx).bind (·.cont)).isSome then (s, area.getD 0)
      else if f.phase = .working then
        let (whole, pnext, busy) := mmaStop op a.desc b.desc (f.due - max s.ck f.start)
        let applied := groups - whole - (if pnext = 0 then 0 else 1)
        let s := (s.advanceMma f applied).modFiring f.id fun g => { g with busy := busy }
        let blk := contBlock f a b op set (groups - whole) (if pnext = 0 then 0 else f.psum.getD 0) pnext
        let base := ((area.bind fun i => s.flow.allocs.find? fun (q : Alloc) => q.core == f.core && q.idx == i).map (·.base)).getD 0
        let s := if area.isSome then s.write (scratchKey f.core (512 * (base + 330))) (leBytes 64 blk.toNat) else s
        let s := match (if pnext = 0 then none else f.psum.bind fun i => s.flow.allocs.find? fun (q : Alloc) => q.core == f.core && q.idx == i) with
          | some q => s.havoc (scratchKey f.core (512 * q.base)) 131072
          | none => s
        (s.modCctx f.core f.ctx fun y => { y with cont := some blk }, area.getD 0)
      else (s, 0)
    | _, _ => (s, 0)
  | _, _ => (s, 0)

/-- Stop an engine's firings, each with its progress and the occupancy that remains of it (R143, R284). -/
def State.pauseFirings (s : State) (core ctx e : Nat) : State :=
  let held (f : Firing) : Bool := f.core == core && f.ctx == ctx && engCode f.eng == e && f.phase == Phase.working
  s.modFlow fun w => { w with firings := modify held (fun f => { f with
    phase := .stopped, prog := s.progress f, busy := if f.isProduct then f.busy else f.due - s.ck }) w.firings }

/-- Whether a firing can be stopped before its end (R284): a memory firing of S, a vector operator, one of M's products, a FORK, or one
whose operation is outstanding elsewhere. -/
def Firing.stoppable (f : Firing) : Bool :=
  !f.eos && (f.order.isSome || f.forks || f.isProduct || isMemoryOp f.op || isVectorOp f.op)

/-- Whether a firing must still complete and send before its engine stops (R284): any that cannot be stopped, and any whose work is
done. -/
def State.mustEnd (s : State) (core ctx e : Nat) (f : Firing) : Bool :=
  f.core == core && f.ctx == ctx && engCode f.eng == e && f.phase == Phase.working && f.job == .none && f.order.isNone
    && (!f.stoppable || decide (f.due ≤ s.ck)) && !s.behindInOrder f

/-- The firing that raised a recoverable fault as it issued, and went back to its ready order (R204, R283). -/
def State.returnedFiring (s : State) (ctx : Nat) (c : HaltCause) : Option Firing :=
  match s.flow.ready.find? fun r => r.core == c.core && r.ctx == ctx && engCode r.eng == c.e && r.slot == c.slot with
  | some r => (s.slot? r.core ctx r.eng r.slot).map fun t =>
    { passing 0 t { core := r.core, eng := r.eng, slot := r.slot, port := 0, ctx := ctx, col := r.col, kind := 1, sect := t.sect, psn := false,
                    seq := 0, tag := tokTag t r.a r.b r.p, w0 := 0, w1 := 0 } with eos := false }
  | none => none

/-- The firing that raised a recoverable fault: one whose operation is outstanding, or one that went back as it issued (R206, R308). -/
def State.raisedFiring (s : State) (ctx : Nat) (c : HaltCause) : Option Firing :=
  match c.order with
  | some o => (s.chest? c.core ctx o).bind fun e => s.firing? e.fid
  | none => s.returnedFiring ctx c

/-- Stop M, V or S of a core for a halting context and write its record (R284, R285, R308): M's has no progress index. -/
def State.stopEngine (s : State) (x : Ctx) (core e : Nat) : State :=
  let fault := x.stopCause core e
  let base : StopInfo := { ck := s.ck, fkind := (fault.map (·.kind)).getD 0, reason := x.haltReason, ctx := x.id, core := core, e := e }
  let raised : Option HaltCause := (fault.bind fun (c : HaltCause) => if c.kind = 35 then Option.none else some c)
  let base := { base with handle := (raised.map fun (c : HaltCause) => c.handle).getD 0, block := (raised.map fun (c : HaltCause) => c.block).getD 0, gen := (raised.map fun (c : HaltCause) => c.gen).getD 0 }
  match s.heldFiring core x.id e with
  | none =>
    let s := s.pauseFirings core x.id e
    let r := StopInfo.word (match raised.bind (s.raisedFiring x.id) with
      | some f => { base with valid := true, tag := f.tag.toNat, sect := f.sect, col := f.col, slot := f.slot }
      | none => { base with valid := raised.isSome, slot := (raised.map fun (c : HaltCause) => c.slot).getD 0 })
    (s.writeStop x.id core e r).addStop core x.id { e := e, reason := x.haltReason, record := r, stepped := none }
  | some f =>
    let product := if e = 0 then s.flow.firings.find? fun g => g.core == core && g.ctx == x.id && g.isProduct else none
    let (s, cont) := (product.map s.stopM).getD (s, 0)
    let s := s.pauseFirings core x.id e
    let r := StopInfo.word { base with valid := true, cont := cont, prog := if f.isProduct then 0 else s.progress f, tag := f.tag.toNat, sect := f.sect,
                                       col := f.col, slot := f.slot }
    (s.writeStop x.id core e r).addStop core x.id { e := e, reason := x.haltReason, record := r, stepped := none }

/-- Stop the control core of a halting context (R95, R284): its stores leave the buffer, and a waiting instruction is abandoned. -/
def State.stopControl (s : State) (x : Ctx) (core : Nat) : State :=
  let c := s.ctl core
  let owns := decide (c.owner = some x.id)
  let (s, c) := if owns then s.drain c else (s, c)
  let s := if owns then s.setCtl { c.abandon with run := if c.run = .running then .halted else c.run } else s
  let kind := if x.causes.any fun q => q.kind == 35 then 35 else 0
  let r := StopInfo.word { ck := s.ck, pc := if owns then c.pc.toNat else 0, fkind := kind, reason := x.haltReason, ctx := x.id,
                           core := core, e := 3, valid := owns && c.run != .idle }
  (s.writeStop x.id core 3 r).addStop core x.id { e := 3, reason := x.haltReason, record := r, stepped := none }

/-- Stop the copy replayer of a core (R263, R284). -/
def State.stopReplayer (s : State) (x : Ctx) (core : Nat) : State :=
  let n := (x.copies.filter fun c => c.running && !c.ended && (c.entry.extractLsb' 16 9).toNat == core).length
  let fault := x.stopCause core 4
  let raised : Option HaltCause := (fault.bind fun (c : HaltCause) => if c.kind = 35 then Option.none else some c)
  let r := StopInfo.word { ck := s.ck, fkind := (fault.map (·.kind)).getD 0, reason := x.haltReason, ctx := x.id, core := core, e := 4,
                           prog := n, handle := (raised.map fun (c : HaltCause) => c.handle).getD 0, block := (raised.map fun (c : HaltCause) => c.block).getD 0,
                           gen := (raised.map fun (c : HaltCause) => c.gen).getD 0, valid := decide (0 < n) }
  (s.writeStop x.id core 4 r).addStop core x.id { e := 4, reason := x.haltReason, record := r, stepped := none }

/-- ENGINE_STOP (R143, R191, R284, R285, R308): engine e of a core, 0 M, 1 V, 2 S, 3 C, 4 the replayer, once the firings that must complete
have sent, and V at a boundary of a row. -/
def execEngineStop (core : Nat) (ctx : Nat) (e : Nat) (s : State) : Host.Outcome State Fault Refusal :=
  match s.ctx? ctx, s.cctx? core ctx with
  | some x, some _ =>
    if x.phase = .halting ∧ e < 5 ∧ s.haltStopped core ctx e = false ∧ s.flow.firings.any (s.mustEnd core ctx e) = false
        ∧ s.flow.firings.any (s.midRow core ctx e) = false then
      let t := if e < 3 then s.stopEngine x core e else if e = 3 then s.stopControl x core else s.stopReplayer x core
      finish s (t.modCtx ctx fun x => { x with watch := { x.watch with last := (core, e) } })
    else finish s s
  | _, _ => finish s s

/-- The stops of `dolz` when a context has halted: for DHLD (R317), and under `break fault` for a recoverable fault or a pre-emption
(R321). -/
def State.haltStops (s : State) (x : Ctx) : State :=
  let dhld := x.causes.any fun c => c.kind == 0
  let other := x.causes.any fun c => decide (32 ≤ c.kind)
  let pre := x.causes.any fun c => c.kind == 35
  let s := if x.dolz && dhld then s.haltStop x.id (.stop 5) else s
  let s := if x.dolz && x.watch.onFault && other then s.haltStop x.id (if pre then .preemption else .fault) else s
  s.modCtx x.id fun x => { x with watch := { x.watch with due := x.watch.due || other } }

/-- CONTEXT_HALTED (R285, R290, R321): every core has frozen; management is notified. -/
def execContextHalted (ctx : Nat) (s : State) : Host.Outcome State Fault Refusal :=
  match s.ctx? ctx with
  | some x =>
    if x.phase = .halting ∧ ((s.cores.filter fun y => y.ctx == ctx).all fun y => s.frozen y.core ctx) = true then
      finish s (((s.modCtx ctx fun x => { x with phase := .halted }).record (.halted ctx)).haltStops x)
    else finish s s
  | none => finish s s

/-! ### Seals -/

/-- The slots of a section. -/
def State.sectionSlots (s : State) (ctx sect : Nat) : List Slot := s.flow.slots.filter fun t => t.ctx == ctx && t.sect == sect

/-- Whether a destination entry leads to a slot of the same section (R298). -/
def State.entryInside (s : State) (ctx sect : Nat) (w : Word) : Bool :=
  let e := (w.extractLsb' 33 2).toNat
  !w.getLsbD 21 && (w.getLsbD 62 || (w.extractLsb' 44 18).toNat == s.devId) && e != 3
    && match s.slot? (w.extractLsb' 35 9).toNat ctx (engOfCode e) (w.extractLsb' 24 9).toNat with
       | some t => t.sect == sect
       | none => false

/-- The boundary edges of a section on one engine: destination codes, then the multicast entries of MCST slots (R298). -/
def State.edges (s : State) (ctx sect core : Nat) (e : Eng) : List Nat × List Word :=
  let slots := (s.sectionSlots ctx sect).filter fun t => t.core == core && t.eng == e
  let codes := (slots.flatMap fun t => opDests (sendFields t.word)).eraseDups.filter fun c =>
    c != 0 && (c == 127 || ((s.dest core ctx e c).getLsbD 63 && !s.entryInside ctx sect (s.dest core ctx e c)))
  (codes, ((slots.filter fun t => wordOp t.word == 0x3B).map (·.lit1)).eraseDups)

/-- A firing that stands for a sealed section's edge. -/
def edgeFiring (core ctx : Nat) (e : Eng) (sect : Nat) : Firing :=
  { id := 0, core := core, ctx := ctx, eng := e, slot := 0, sect := sect, op := 0, col := 0, tag := 0, a := none, b := none,
    p := none, got := none, outCol := 0, outTag := 0, freeCol := none, outs := [], release := [], phase := .working, start := 0,
    due := 0, genHeld := false, strm := 0, inOrder := false, order := none, job := .none, prog := 0, sealed := false, eos := true,
    psum := none, busy := 0, occ := 0, born := 0, mseq := 0, mck := 0 }

/-- Send error-EOS on one engine's boundary edges, at colour 0 and at each colour the section held, on whichever core (R298). -/
def State.sendEdges (s : State) (ctx sect core : Nat) (e : Eng) (held : List Nat) : State :=
  let f := edgeFiring core ctx e sect
  let (codes, casts) := s.edges ctx sect core e
  let s := codes.foldl (fun s c => (0 :: held).foldl (fun s k => s.sendCode f c 4 false k 0 0 0) s) s
  casts.foldl (fun s w => (0 :: held).foldl (fun s k => s.sendEntry f true w 4 false k 0 0 0) s) s

/-- Insertion of a number into an ascending list. -/
def insertNat (n : Nat) : List Nat → List Nat
  | [] => [n]
  | m :: t => if n ≤ m then n :: m :: t else m :: insertNat n t

/-- A list in ascending order. -/
def sortNats (l : List Nat) : List Nat := l.foldr insertNat []

/-- The firings in progress of a sealing section (R297): one whose access is outstanding at memory or at another device goes on, with the
rows it has issued, without sending; M applies a product's k-groups up to its skid boundary; any other ends. A Chest entry beside a Bench
entry stays until that is freed (R343). -/
def State.sealFirings (s : State) (ctx sect : Nat) : State :=
  let mine (f : Firing) : Bool := f.ctx == ctx && f.sect == sect && f.phase != Phase.sent && f.eng != .c
  let keeps (f : Firing) : Bool :=
    f.order.isSome && (f.phase != Phase.waitSpace || (s.benchFor f).isSome) && (match f.job with | .none => false | _ => true)
  let s := ((s.flow.firings.filter fun f => mine f && !keeps f)).foldl (fun s f =>
    let s := if f.isProduct then (s.stopM f).1.modCctx f.core ctx fun y => { y with cont := none } else s
    s.endFiring { f with freeCol := none }) s
  let ends (f : Firing) : Firing := { f with
    sealed := true, freeCol := none, prog := s.progress f
    phase := if f.phase = .waitSpace then .working else f.phase, outs := if f.phase = .waitSpace then [] else f.outs }
  s.modFlow fun w => { w with
    firings := modify mine ends w.firings
    reqs := w.reqs.filter fun q => match q.who with
      | .firing id | .psum id => !((s.firing? id).any mine)
      | _ => true }

/-- What a seal adds to the completion record (R299): the first seal, or the lowest section among those of its ck, names the fault. -/
def Ctx.countSeal (x : Ctx) (ck sect kind : Nat) : Ctx :=
  let first := !x.sealed || (decide (x.fck = ck) && decide (sect < x.fsect))
  { x with faults := x.faults + 1, sealed := true, fkind := if first then kind else x.fkind, fsect := if first then sect else x.fsect,
           fck := if first then ck else x.fck }

/-- A seal notice reaches a control core (R299). -/
def Ctl.postSeal (c : Ctl) (ck sect kind : Nat) : Ctl :=
  let c := if c.seals.length < 8 then { c with seals := c.seals ++ [(sect, kind)] } else c
  c.setPend ck 17

/-- Seal a section (R169, R297 to R299); a section that has finished, or that the context does not have, only counts its fault. `quiet` sends no error-EOS (R302). -/
def State.sealNow (s : State) (ctx sect kind : Nat) (quiet : Bool) : State :=
  match (s.ctx? ctx).bind fun x => x.section? sect with
  | none => s.modCtx ctx fun x => x.countSeal s.ck sect kind
  | some t =>
    if t.sealed then s
    else
      let s := s.modCtx ctx fun x => x.countSeal s.ck sect kind
      if t.finished then s
      else
        let s := s.modCtx ctx fun x => x.modSection sect fun t => { t with sealed := true, active := false }
        let parts := s.cores.filter fun y => y.ctx == ctx
        let held : List Nat := (sortNats (parts.flatMap fun y => (y.pool.filter fun q => q.2 == sect).map (·.1))).eraseDups
        let s := (s.discardWaiting ctx (s.slotIn ctx [sect])).sealFirings ctx sect
        let s := s.returnColours ctx [sect]
        let s := if quiet then s else
          parts.foldl (fun s y => [Eng.m, .v, .s].foldl (fun s e => s.sendEdges ctx sect y.core e held) s) s
        { s with ctls := s.ctls.map fun (c : Ctl) => if c.owner = some ctx then c.postSeal s.ck sect kind else c }

/-- SECTION_SEAL (R297 to R299): the n-th requested seal. -/
def execSectionSeal (n : Nat) (s : State) : Host.Outcome State Fault Refusal :=
  match s.flow.seals[n]? with
  | none => finish s s
  | some (ctx, sect, kind) =>
    let t := s.modFlow fun w => { w with seals := w.seals.eraseIdx n }
    if s.held ctx then finish s s
    else if s.lineLow ctx then finish s (t.sealNow ctx sect kind false)
    else if (s.ctx? ctx).isNone then finish s t
    else finish s (t.modCtx ctx fun x =>
      if x.pendSeals.any fun q => q.1 == sect then x else { x with pendSeals := x.pendSeals ++ [(sect, kind)] })

/-- Perform a context's pending seals (R296 step 2, R300). -/
def State.performSeals (s : State) (ctx : Nat) : State :=
  match s.ctx? ctx with
  | none => s
  | some x => x.pendSeals.foldl (fun s q => s.sealNow ctx q.1 q.2 false) (s.modCtx ctx fun x => { x with pendSeals := [] })

/-- SECTION_FINISH (R161, R162, R303): every core of CSET is spent, and every firing has sent; what still waits is discarded. -/
def execSectionFinish (ctx : Nat) (sect : Nat) (s : State) : Host.Outcome State Fault Refusal :=
  match (s.ctx? ctx).bind fun x => x.section? sect with
  | none => finish s s
  | some t =>
    let spentOn (c : Nat) : Bool := match s.cctx? c ctx with
      | some y => y.sects.any fun q => q.sect == sect && q.spent
      | none => false
    if t.active ∧ !t.sealed ∧ !t.finished ∧ (maskCores t.cset).all spentOn = true ∧ s.runs ctx = true
        ∧ (s.flow.firings.any fun f => f.ctx == ctx && f.sect == sect && f.phase != Phase.sent && f.eng != .c) = false then
      finish s ((s.discardWaiting ctx (s.slotIn ctx [sect])).modCtx ctx fun x =>
        x.modSection sect fun t => { t with finished := true, active := false })
    else finish s s

/-! ### Service, save and restore -/

/-- A job with its record as translated again. -/
def Job.withObj (r : ObjRec) : Job → Job
  | .load t => .load { t with obj := r }
  | .store t => .store { t with obj := r }
  | .scalarLoad t => .scalarLoad { t with obj := r }
  | .scalarStore t v i => .scalarStore { t with obj := r } v i
  | .atomic t op sc v u w => .atomic { t with obj := r } op sc v u w
  | .invoke t sub v w => .invoke { t with obj := r } sub v w
  | .push h _ d d1 m k => .push h r d d1 m k
  | .pop h _ => .pop h r
  | .counterAdd h _ i v => .counterAdd h r i v
  | .counterWait h _ is t => .counterWait h r is t
  | .counterRead h _ i => .counterRead h r i
  | .barrierArrive h _ => .barrierArrive h r
  | .barrierWait h _ g => .barrierWait h r g
  | .completion t k => .completion { t with obj := r } k
  | .snapshot t bs => .snapshot { t with obj := r } bs
  | j => j

/-- An entry with the result that a recent-tag table holds under its dedup tag (R288). -/
def State.withRecorded (s : State) (e : Chest) : Chest :=
  if e.cls ≠ 2 ∨ e.done then e
  else match s.msys.tags.find? fun t => t.dev.isNone && t.tag == e.dedup with
    | some t => { e with done := true, result := t.result, ok := t.ok }
    | none => e

/-- Whether a job's operation is refused on a shadowed object (R210). -/
def Job.noShadow : Job → Bool
  | .atomic _ _ _ _ _ _ | .invoke _ _ _ _ | .push _ _ _ _ _ _ | .pop _ _ => true
  | _ => false

/-- The record under which a replayed entry is performed: none where it does not translate again, or is an atomic's and the object is shadowed
now (R207, R210). -/
def State.reissuedRecord (s : State) (e : Chest) : Option ObjRec :=
  (s.retranslate e.handle e.gen).filter fun r => r.st != 4 || !((s.firing? e.fid).any fun f => f.job.noShadow)

/-- A Chest entry of a copy that has rows to come, on either side, whose copy begins again from its first row (R206, R231). The data that a
source at another device has sent are of one version, and stay. -/
def State.copyAnew (s : State) (e : Chest) : State :=
  match (s.ctx? e.ctx).bind fun x => x.copies[e.arg.toNat]? with
  | some c =>
    let s := s.modCtx e.ctx fun x => { x with copies := x.copies.modify e.arg.toNat fun c => { c with rowsDone := 0, sent := [] } }
    [c.srcOrder, c.dstOrder].foldl (fun s o => s.modChest e.core e.ctx o fun c => { c with row := 0 }) s
  | none => s

/-- Whether the rows of a Chest entry have all been moved: of a copy, its last one is done, and only the acknowledgement is awaited. -/
def State.rowsMoved (s : State) (e : Chest) : Bool :=
  e.eng == 3 && ((s.ctx? e.ctx).bind fun x => x.copies[e.arg.toNat]?).all fun c => decide (c.rows ≤ c.rowsDone)

/-- Reissue one Chest entry (R207, R210, R229, R231, R263, R288, R290, R296): an operation that its bank has recorded is not performed again;
a tile access or copy that met an absent block (R206), or whose object lies elsewhere since, so that its rows would come from two versions
or go to two places, begins anew; any other asks again for the rows not yet answered (R289). One that is not performed frees its Bench entry
(R343). -/
def State.reissue (s : State) (e : Chest) : State :=
  let e := s.withRecorded ((s.chest? e.core e.ctx e.order).getD e)
  let s := s.uncount e
  let cols := ((s.firing? e.fid).map fun f => f.job.cols).getD 1
  let moved (r : ObjRec) : Bool := decide (r.gen ≠ e.gen) || (s.accessOf e).any fun t => t.obj.base != r.base || t.obj.st != r.st || t.obj.shadow != r.shadow
  let put (s : State) (gen : Nat) (anew : Bool) : State :=
    let row := if anew then 0 else e.row
    let s := s.modChest e.core e.ctx e.order fun c => { c with
      st := 0, gen := gen, row := row, cell := row * cols, poison := !anew && c.poison, done := e.done, result := e.result, ok := e.ok,
      counted := e.counts, got := if anew then [] else c.got }
    if e.counts then s.inflight e.handle gen true else s
  if e.handle = 0 ∨ e.counts = false ∨ e.done = true then put s e.gen (e.st == 3)
  else match s.reissuedRecord e with
    | some r =>
      let anew := (e.st == 3 || moved r) && !s.rowsMoved e
      let s := put s r.gen anew
      let mine (f : Firing) : Bool := f.id == e.fid && f.core == e.core && f.ctx == e.ctx && f.order == some e.order
      let again (f : Firing) : Firing :=
        let j := f.job.withObj r
        { f with job := j, strm := match s.slot? f.core f.ctx f.eng f.slot with
            | some sl => s.requestStream f (wordFields sl.word) j
            | none => f.strm }
      let s := s.modFlow fun w => { w with firings := modify mine again w.firings }
      if e.eng = 3 then
        let s := if anew then s.copyAnew e else s
        s.modCtx e.ctx fun x => { x with copies := x.copies.modify e.arg.toNat fun c => { c with
          src := if e.kind = 16 then c.src.map fun t => { t with obj := r } else c.src
          dst := if e.kind = 17 then c.dst.map fun t => { t with obj := r } else c.dst } }
      else s
    | none =>
      let s := s.dropBenchOf e
      if e.eng = 3 then s.failCopy e.ctx e.arg.toNat 3
      else match s.firing? e.fid with
        | some f => s.failFiring f 3
        | none => s.retireChest e.core e.ctx e.order

/-- Chest entries charged to a sealed section are dropped before the reissue (R296 step 2); `p` says which. A copy whose entries go so
fails (log 70). The Bench entry of a dropped entry is freed with it; one in state 4 keeps its result, and its Chest entry stays (R343, R346). -/
def State.dropSealed (s : State) (ctx : Nat) (p : Chest → Bool) : State :=
  (s.msys.chest.filter fun e => e.ctx == ctx && s.isSealed ctx e.sect && p e).foldl (fun s e =>
    if e.eng = 3 then s.failCopy ctx e.arg.toNat 3
    else match s.firing? e.fid with
      | some f =>
        let s := s.modMsys fun m => { m with bench := m.bench.filter fun b => !(b.fid == f.id && b.st != 4) }
        s.endFiring { f with freeCol := none }
      | none => s.retireChest e.core ctx e.order) s

/-- Resume a halted context without a save (R290, R317): pending seals come first, then the faulted entries are reissued in ORDER. -/
def State.resumeHalted (s : State) (ctx : Nat) : State :=
  let t := (s.performSeals ctx).dropSealed ctx fun e => e.st == 3
  let t := (t.msys.chest.filter fun e => e.ctx == ctx && e.st == 3).foldl (fun s e => s.reissue e) t
  t.modCtx ctx fun x => { x with phase := .restoring, causes := [] }

/-- FAULT_SERVICE_RESUME (R290): management has serviced the faults of a halted context. A pre-empted context is saved instead, and one
held by DHLD waits for the debugger (R317). -/
def execFaultServiceResume (ctx : Nat) (s : State) : Host.Outcome State Fault Refusal :=
  match s.ctx? ctx with
  | some x =>
    if s.serves .faults ∧ x.phase = .halted ∧ x.watch.held = none ∧ (x.causes.all fun c => c.kind != 35 && c.kind != 0) = true then finish s (s.resumeHalted ctx) else finish s s
  | none => finish s s

/-- FAULT_REFUSAL (R290, R300): each fault of the halt becomes object access, a pending seal of its section. -/
def execFaultRefusal (ctx : Nat) (s : State) : Host.Outcome State Fault Refusal :=
  match s.ctx? ctx with
  | some x =>
    if x.phase = .halted ∧ s.serves .faults then
      let hit (c : HaltCause) : Bool := c.kind == 32 || c.kind == 33 || c.kind == 34
      let refuse (s : State) (c : HaltCause) : State :=
        match c.order.bind fun o => s.chest? c.core ctx o with
        | some e =>
          if e.eng = 3 then s.failCopy ctx e.arg.toNat 3
          else match s.firing? e.fid with
            | some f => s.failFiring f 3
            | none => s
        | none =>
          if c.e = 4 then s.failCopy ctx c.slot 3
          else match s.slot? c.core ctx (engOfCode c.e) c.slot with
            | some t => s.raise ctx t.sect 3
            | none => s
      finish s ((x.causes.filter hit).foldl refuse (s.modCtx ctx fun x => { x with causes := x.causes.filter fun c => !hit c }))
    else finish s s
  | none => finish s s

/-- Bytes of a field whose layout the spec does not give (R291; log 7). -/
def State.saveOpen (s : State) (a n : Nat) : State := s.havoc a n

/-- Write a context's part of a core into its save object (R291, R292 steps 2, 4 and 5). The header holds the Bench entries behind the stop
records: where in it they stand, the rule does not say (log 7). -/
def State.writeSave (s : State) (core ctx : Nat) (chest : List Chest) (drawers moved : Nat) (owns : Bool) (as : List Alloc) : State :=
  match s.saveBase? ctx core with
  | none => s
  | some a =>
    let s := s.saveOpen (a + 320) (4096 - 320)
    let s := s.write (a + 320) (((s.benchOf core).filter fun b => b.ctx == ctx).flatMap fun b => leBytes 32 b.word.toNat)
    let s := s.write (a + 4096) (chest.flatMap fun e => leBytes 32 e.word.toNat)
    let s := s.saveOpen (a + 8192) (64 * drawers)
    let s := s.saveOpen (a + 57344) (128 * moved)
    let s := if owns then s.write (a + 122880) (s.read (coreKey core 0) sramSize) else s
    as.foldl (fun s q => s.write (a + 253952 + 512 * q.base) (s.read (scratchKey core (512 * q.base)) (512 * q.len))) s

/-- Whether a token of a context is still on its way within the device (R292 step 3); an error-EOS that its halted slot cannot take
yet, and what follows it on its route, stays (log 23). -/
def State.tokensMoving (s : State) (ctx : Nat) : Bool :=
  (s.flow.net.zipIdx).any fun q => q.1.tok.ctx == ctx && q.1.toDev.isNone
    && !((s.flow.net.take (q.2 + 1)).any fun r => r.sameRoute q.1 && (s.errorSlot r.tok).isSome)

/-- Whether a halted context is to be saved (R290, R317): it is pre-empted, and no DHLD holds it. -/
def Ctx.preempted (x : Ctx) : Bool := (x.causes.any fun c => c.kind == 35) && !(x.causes.any fun c => c.kind == 0)

/-- CONTEXT_SAVE (R292): one core of a pre-empted, halted context is saved, and the context leaves it. -/
def execContextSave (core : Nat) (ctx : Nat) (s : State) : Host.Outcome State Fault Refusal :=
  match s.ctx? ctx, s.cctx? core ctx with
  | some x, some y =>
    if s.serves .faults = false ∨ ¬((x.phase = .halted ∧ x.preempted = true) ∨ x.phase = .saving) ∨ x.watch.held.isSome = true ∨ y.saved = true ∨ s.tokensMoving ctx = true then finish s s
    else
      let c := s.ctl core
      let owns := decide (c.owner = some ctx)
      let heldM := decide (s.holder core = some ctx)
      let s1 : State := if heldM then
          let s1 := match y.area.bind fun i => s.flow.allocs.find? fun (q : Alloc) => q.core == core && q.idx == i with
            | some a => s.havoc (scratchKey core (512 * a.base)) setBytes
            | none => s
          s1.modFlow fun w => { w with holder := w.holder.filter fun q => q.1 != core }
        else s
      let chest := s1.chestOf core ctx
      let s1 := chest.foldl State.uncount s1
      let chest := s1.chestOf core ctx
      let w := s1.flow
      let mineD (d : Drawer) : Bool := d.core == core && d.ctx == ctx
      let mineR (r : Ready) : Bool := r.core == core && r.ctx == ctx
      let mineA (a : Alloc) : Bool := a.core == core && a.ctx == ctx
      let fids := (w.firings.filter fun f => f.core == core && f.ctx == ctx).map (·.id)
      let mineQ (q : AllocReq) : Bool := q.core == core && match q.who with
        | .firing id | .psum id => fids.contains id
        | .saveArea k => k == ctx
        | .packet nt => nt.tok.ctx == ctx
      let mineI (nt : NetTok) : Bool := nt.tok.core == core && nt.tok.ctx == ctx
      let as := w.allocs.filter mineA
      let part : SavedPart :=
        { ctl := if owns then some c else none, drawers := w.drawers.filter mineD, ready := w.ready.filter mineR,
          cwait := w.cwait.filter mineR, reqs := w.reqs.filter mineQ, ingress := w.ingress.filter mineI, allocs := as, chest := chest, heldM := heldM }
      let ds := w.drawers.filter mineD
      let s2 := s1.writeSave core ctx chest (ds.filter fun d => d.overflow.isNone).length (ds.filter fun d => d.overflow.isSome).length owns as
      let s3 := s2.modFlow fun w => { w with
        drawers := w.drawers.filter fun d => !mineD d
        ready := w.ready.filter fun r => !mineR r
        cwait := w.cwait.filter fun r => !mineR r
        reqs := w.reqs.filter fun q => !mineQ q
        ingress := w.ingress.filter fun nt => !mineI nt
        allocs := w.allocs.filter fun a => !mineA a }
      let s4 := s3.modMsys fun m => { m with chest := m.chest.filter fun e => !(e.core == core && e.ctx == ctx) }
      let s5 := if owns then s4.setCtl (Ctl.reset core) else s4
      let s6 := s5.modCctx core ctx fun y => { y with part := some part }
      let done := (s6.cores.filter fun y => y.ctx == ctx).all CoreCtx.saved
      finish s (s6.modCtx ctx fun x => { x with
        phase := if done then .saved else .saving
        watch := { x.watch with savedAt := if done then some s.ck else none } })
  | _, _ => finish s s

/-- A save store of a context faults (R294): the context is lost. -/
def State.saveFails (s : State) (ctx : Nat) : State :=
  match s.ctx? ctx with
  | some x => if (x.phase = .halted ∧ x.preempted = true) ∨ x.phase = .saving then s.lose ctx else s
  | none => s

/-- An uncorrectable error in a Drawer or a Chest entry that a context has on a core (R282): the context is lost. -/
def State.storageFails (s : State) (core ctx : Nat) : State :=
  if (s.flow.drawers.any fun d => d.core == core && d.ctx == ctx)
      || ((s.flow.ready ++ s.flow.cwait).any fun r => r.core == core && r.ctx == ctx)
      || (s.msys.chest.any fun e => e.core == core && e.ctx == ctx) then s.lose ctx
  else s

/-- A write of a context bound for host memory (R301): poison is dropped and counted, with no seal; the host's memory is no state of
the HN7. -/
def State.hostWrites (s : State) (ctx : Nat) (poison : Bool) : State :=
  if poison then s.modCtx ctx fun x => { x with faults := x.faults + 1 } else s

/-- Read back a context's private SRAM and granules (R296 step 1). -/
def State.readSave (s : State) (core ctx : Nat) (owns : Bool) (as : List Alloc) : State :=
  match s.saveBase? ctx core with
  | none => s
  | some a =>
    let s := if owns then s.write (coreKey core 0) (s.read (a + 122880) sramSize) else s
    as.foldl (fun s q => s.write (scratchKey core (512 * q.base)) (s.read (a + 253952 + 512 * q.base) (512 * q.len))) s

/-- Whether a captured entry has rows to come: the firing still has its access (R289). -/
def State.partly (s : State) (e : Chest) : Bool := e.st == 2 && (s.firing? e.fid).any fun f => f.job.tile?.isSome

/-- Reissue what a restored context left outstanding (R296 step 3, R345): in ORDER on each core, the Chest entries that are neither answered
nor wholly captured, and each entry's Bench entry. -/
def State.reissueAll (s : State) (ctx : Nat) : State :=
  let again (e : Chest) : Bool := e.st == 0 || e.st == 3 || s.partly e
  (s.msys.chest.filter fun e => e.ctx == ctx).foldl (fun s e =>
    let s := if again e then s.reissue e else s
    (s.msys.bench.filter fun b => b.core == e.core && b.ctx == ctx && b.order == e.order && b.st != 4).foldl
      (fun s b => s.replayBench b (if b.st = 0 then 0 else 3)) s) s

/-- Copies in progress at a core's replayer (R252); those of a context that is saved have left the core (R292). -/
def State.copiesRunning (s : State) (core : Nat) : Nat :=
  let here (x : Ctx) : Bool := (s.cctx? core x.id).any fun y => !y.saved
  ((s.ctxs.filter here).map fun x => (x.copies.filter fun c => c.running && !c.ended && c.core == core).length).sum

/-- The entries that a context's copies have in progress on a core (R252). -/
def State.copiesOf (s : State) (core ctx : Nat) : Nat :=
  ((s.ctx? ctx).map fun x => (x.copies.filter fun c => c.running && !c.ended && c.core == core).length).getD 0

/-- Whether a saved context's place on a core is free (R295): its granules and control core, and room among the resident contexts,
Chest entries, Drawers and running copies of the core (R159, R178, R252, R286). -/
def State.placeFree (s : State) (core ctx : Nat) (p : SavedPart) : Bool :=
  p.allocs.all (fun a => (s.allocsOf core).all fun b => decide (a.base + a.len ≤ b.base ∨ b.base + b.len ≤ a.base) && a.idx != b.idx)
    && (p.ctl.isNone || (s.ctl core).owner.isNone)
    && decide ((s.msys.chest.filter fun e => e.core == core).length + p.chest.length ≤ 128)
    && decide ((s.cores.filter fun y => y.core == core && !y.saved).length < 8) && decide (s.copiesRunning core + s.copiesOf core ctx ≤ 8)
    && ([Eng.m, .v, .s].all fun e => decide (s.engineDrawers core e + (p.drawers.filter fun d => d.eng == e && d.overflow.isNone).length ≤ 256))
    && decide (s.overflowInUse core + (p.drawers.filter fun d => d.overflow.isSome).length
      + ((p.ready ++ p.cwait).filter fun r => r.overflow.isSome).length ≤ 512)

/-- The Drawers of a saved part, matched or not, are reloaded with their ages and their match order; those in overflow come to free places
(R178, R195, R296 step 1). -/
def State.reloadDrawers (s : State) (core : Nat) (p : SavedPart) : State :=
  let s := p.drawers.foldl (fun s d =>
    let d := { d with overflow := d.overflow.map fun _ => s.freeOverflow core }
    (s.modFlow fun w => { w with drawers := w.drawers ++ [d] }).fillDrawer core d.overflow) s
  let s := p.ready.foldl (fun s r =>
    let r := { r with overflow := r.overflow.map fun _ => s.freeOverflow core }
    (s.modFlow fun w => { w with ready := w.ready ++ [r] }).fillDrawer core r.overflow) s
  p.cwait.foldl (fun s r =>
    let r := { r with overflow := r.overflow.map fun _ => s.freeOverflow core }
    (s.modFlow fun w => { w with cwait := w.cwait ++ [r] }).fillDrawer core r.overflow) s

/-- The firmware scheduler pre-empts a running context, once (R160, R295). -/
def State.preempt (s : State) (ctx : Nat) : State :=
  match s.ctx? ctx with
  | some x =>
    if x.phase = .resident ∧ (x.causes.any fun c => c.kind == 35) = false then
      s.addCause ctx { kind := 35, core := 0, e := 5, slot := 0, handle := 0, gen := 0, block := 0, order := none }
    else s
  | none => s

/-- The other contexts that hold granules, or the control core, of a saved part (R295). -/
def State.placeHolders (s : State) (core ctx : Nat) (p : SavedPart) : List Nat :=
  let meets (a b : Alloc) : Bool := decide (a.base < b.base + b.len ∧ b.base < a.base + a.len) || a.idx == b.idx
  let granules := ((s.allocsOf core).filter fun b => p.allocs.any fun a => meets a b).map (·.ctx)
  let ctl := if p.ctl.isSome then (s.ctl core).owner.toList else []
  (granules ++ ctl).eraseDups.filter fun k => k != ctx

/-- CONTEXT_RESTORE (R295, R296 steps 1 to 4): one core is reloaded; once all are, pending seals are performed and the Chest
entries reissued. While its place is held, what holds it is pre-empted. -/
def execContextRestore (core : Nat) (ctx : Nat) (s : State) : Host.Outcome State Fault Refusal :=
  match s.ctx? ctx, (s.cctx? core ctx).bind (·.part) with
  | some x, some p =>
    if s.serves .faults = false ∨ ¬(x.phase = .saved ∨ x.phase = .restoring) ∨ x.watch.held.isSome = true then finish s s
    else if s.placeFree core ctx p = false then finish s ((s.placeHolders core ctx p).foldl State.preempt s)
    else
      let s1 := s.readSave core ctx p.ctl.isSome p.allocs
      let s2 := (s1.reloadDrawers core p).modFlow fun w => { w with
        reqs := w.reqs ++ p.reqs, ingress := w.ingress ++ p.ingress, allocs := w.allocs ++ p.allocs }
      let s3 := s2.modMsys fun m => { m with chest := m.chest ++ p.chest }
      let s4 := match p.ctl with
        | some c => s3.setCtl c
        | none => s3
      let s5 := s4.modCctx core ctx fun y => { y with part := none }
      let s6 := if p.heldM then s5.swapIn core ctx else s5
      let s7 := s6.modCtx ctx fun x => { x with
        phase := .restoring
        causes := if x.phase = .saved then [] else x.causes
        watch := { x.watch with away := x.watch.away + (x.watch.savedAt.map fun k => s.ck - k).getD 0, savedAt := none } }
      if (s7.cores.filter fun y => y.ctx == ctx).all (fun y => !y.saved) then
        finish s (((s7.performSeals ctx).dropSealed ctx fun _ => true).reissueAll ctx)
      else finish s s7
  | _, _ => finish s s

/-- The stopped firings of a context go on, each for the ck it has left, but those that first need their engine or a generator free, or
that MCONT resumes (R127, R141, R143, R296, R310); captured entries that have rows to come are outstanding again. -/
def State.continueFirings (s : State) (ctx : Nat) : State :=
  let goes (f : Firing) : Bool := f.ctx == ctx && f.phase == Phase.stopped && !f.needsEngine
  let s := s.modFlow fun w => { w with firings := modify goes (fun f => { f with
    phase := .working, start := s.ck, due := s.ck + f.busy, busy := s.ck + f.busy }) w.firings }
  s.modMsys fun m => { m with chest := modify (fun e => e.ctx == ctx && s.partly e) (fun e => { e with st := 0 }) m.chest }

/-- The entries of copies that failed while the Chest was frozen retire (R287, R289). -/
def State.retireFailed (s : State) (ctx : Nat) : State :=
  let failed (e : Chest) : Bool := e.ctx == ctx && e.eng == 3 && e.st == 2 &&
    ((s.ctx? ctx).bind fun x => x.copies[e.arg.toNat]?).any fun c => c.ended
  (s.msys.chest.filter failed).foldl (fun s e => s.retireChest e.core ctx e.order) s

/-- HALT_LINE_FALL (R283, R290, R296 step 5, R300): every core has reissued and seals raised since are performed; engines and control
cores go on. A further cause keeps the line up: the context is halted again. Under `break fault`, `dolz` stops before the line falls
(R321). -/
def execHaltLineFall (ctx : Nat) (s : State) : Host.Outcome State Fault Refusal :=
  match s.ctx? ctx with
  | some x =>
    if ¬(x.phase = .restoring ∧ s.allBack ctx = true) ∨ x.watch.held.isSome = true then finish s s
    else if x.dolz = true ∧ x.watch.due = true ∧ x.watch.onFault = true then
      finish s ((s.haltStop ctx .resume).modCtx ctx fun x => { x with watch := { x.watch with due := false } })
    else if x.causes ≠ [] then finish s (((s.modCtx ctx fun x => { x with phase := .halted }).record (.halted ctx)).haltStops x)
    else
      let s1 := s.performSeals ctx
      let t := { s1 with
        ctls := s1.ctls.map fun (c : Ctl) => if c.owner = some ctx ∧ c.run = CtlRun.halted then { c with run := .running } else c
        cores := modify (fun y => y.ctx == ctx) (fun y => { y with stops := y.stops.filter fun q => q.reason != 0 && q.reason != 5 }) s1.cores }
      let t := ((t.retireFailed ctx).continueFirings ctx).modCtx ctx fun x => { x with phase := .resident, watch := { x.watch with due := false } }
      let t := (t.cores.filter fun y => y.ctx == ctx).foldl (fun t y => t.endSent y.core ctx) t
      finish s (t.resendNotified fun b => b.ctx == ctx)
  | none => finish s s

/-! ### What `dolz` holds (R193, R321) -/

/-- How much later a ck stands for a context held since ck `k`, once it is let go: what was still to come after `k` moves by the time
held since. -/
def State.shifted (s : State) (k n : Nat) : Nat := n + (s.ck - max k n)

/-- `dolz` lets a context go (R193, R304): its work and its ages stand where they stood, and the time held is no running time. -/
def State.letGo (s : State) (ctx : Nat) : State :=
  match (s.ctx? ctx).bind fun x => x.watch.held with
  | none => s
  | some k =>
    let moves (f : Firing) : Bool := f.ctx == ctx && (f.phase == Phase.working || f.phase == Phase.ready)
    let s := s.modFlow fun w => { w with
      firings := modify moves (fun f => { f with
        start := s.shifted k f.start, due := f.due + (s.ck - max k f.start), busy := f.busy + (s.ck - max k f.start) }) w.firings
      ready := modify (fun r => r.ctx == ctx) (fun r => { r with ck := s.shifted k r.ck }) w.ready
      cwait := modify (fun r => r.ctx == ctx) (fun r => { r with ck := s.shifted k r.ck, since := s.shifted k r.since }) w.cwait }
    let s := s.modCtx ctx fun x => { x with watch := { x.watch with held := none, away := x.watch.away + (s.ck - k) } }
    s.resendNotified fun b => b.ctx == ctx

/-- A REPLAY that a requester refused is sent again, while its ticket is open (R345); it counts already (R330). -/
def State.resendReplay (s : State) (n : Nat) : State :=
  match s.fabric.replays[n]? with
  | some r =>
    let s := s.modFabric fun f => { f with replays := f.replays.eraseIdx n }
    if s.msys.tickets.any fun t => t.id == r.id && t.dev == r.dev then s.putPacket 0 r.ctx r.dev 1 false (.answer r.core 0 (.replay r.id))
    else s.acknowledge r.dev 1
  | none => s

/-- REFUSED_TOKEN_RESEND (R293, R330, R345): the n-th token that another device refused, or that waited behind one, leaves, first of its
source and destination; one that was refused counts already; none of a context that `dolz` holds (R193). The refused REPLAY notices come after the tokens. All leave in the ck that
are multiples of 4,096: the rule gives the period alone (log 78). -/
def execRefusedTokenResend (n : Nat) (s : State) : Host.Outcome State Fault Refusal :=
  match s.fabric.refused[n]? with
  | none => finish s (if s.ck % 4096 = 0 then s.resendReplay (n - s.fabric.refused.length) else s)
  | some nt =>
    let first := !((s.fabric.refused.take n).any fun q => q.srcCore == nt.srcCore && q.toDev == nt.toDev && q.tok.core == nt.tok.core)
    match nt.toDev with
    | some d =>
      if first ∧ s.ck % 4096 = 0 ∧ s.held nt.tok.ctx = false then
        finish s ((s.modFabric fun f => { f with refused := f.refused.eraseIdx n }).toFabric nt d)
      else finish s s
    | none => finish s s

/-! ### The end of a context -/

/-- The tokens of a context that another device has refused go with it, and count no longer as unacknowledged (R293, R330). -/
def State.dropRefused (s : State) (ctx : Nat) : State :=
  let mine (nt : NetTok) : Bool := nt.tok.ctx == ctx
  let t := s.modFabric fun f => { f with
    refused := f.refused.filter fun nt => !mine nt
    refusing := f.refusing.filter fun r => r.ctx != ctx }
  (s.fabric.refused.filter fun nt => mine nt && nt.fromDev.isSome).foldl (fun t nt => t.acknowledge (nt.toDev.getD 0) 1) t

/-- Everything a context held on the device is given back (R267, R302): its cores, granules, Drawers, tokens, Chest and Bench
entries, and the recent-tag entries of a lost context (R288), here and, by the retire notices of its I2 entries, at other devices. Its
objects stay, and so do the launch records that its device launch queue has accepted (R278; log 97). -/
def State.endContext (s : State) (ctx : Nat) : State :=
  let s := s.dropRefused ctx
  let saved := (s.cores.filter fun y => y.ctx == ctx).flatMap fun y => (y.part.map (·.chest)).getD []
  let s := (s.msys.chest.filter fun e => e.ctx == ctx).foldl (fun s e => (s.uncount e).noticeOwner e) s
  let s := saved.foldl State.noticeOwner s
  let w := s.flow
  let fids := (w.firings.filter fun f => f.ctx == ctx).map (·.id)
  let s := { s with
    ctls := s.ctls.map fun (c : Ctl) => if c.owner = some ctx then Ctl.reset c.core else c
    cores := s.cores.filter fun y => y.ctx != ctx
    ctxs := s.ctxs.filter fun x => x.id != ctx
    flow := { w with
      slots := w.slots.filter fun t => t.ctx != ctx
      dests := w.dests.filter fun d => d.ctx != ctx
      drawers := w.drawers.filter fun d => d.ctx != ctx
      ready := w.ready.filter fun r => r.ctx != ctx
      cwait := w.cwait.filter fun r => r.ctx != ctx
      firings := w.firings.filter fun f => f.ctx != ctx
      allocs := w.allocs.filter fun a => a.ctx != ctx
      reqs := w.reqs.filter fun q => match q.who with
        | .firing id | .psum id => !fids.contains id
        | .saveArea k => k != ctx
        | .packet nt => nt.tok.ctx != ctx
      ingress := w.ingress.filter fun t => t.tok.ctx != ctx
      returns := w.returns.filter fun q => q.ctx != ctx
      seals := w.seals.filter fun q => q.1 != ctx
      holder := w.holder.filter fun q => q.2 != ctx } }
  (s.modMsys fun m => { m with
    chest := m.chest.filter fun e => e.ctx != ctx
    bench := m.bench.filter fun b => b.ctx != ctx
    tags := m.tags.filter fun t => !(t.dev.isNone && t.tag / 2^33 == ctx) }).modHost fun h =>
      { h with ctxLaunches := modify (fun q => q.1 == ctx) (fun q => (q.1, { q.2 with ended := true })) h.ctxLaunches, streams := h.streams.filter fun q => q.byLid.isSome || q.ctx != ctx }

/-- The completion record (R267). -/
def Ctx.completion (x : Ctx) (lost : Bool) : BitVec 512 :=
  let f := decide (x.faults ≠ 0)
  BitVec.ofNat 512 (1 + f.toNat * 2 + x.sealed.toNat * 4 + x.empty.toNat * 8 + x.aband.toNat * 16 + lost.toNat * 32
    + x.faults % 2^64 * 2^64 + x.orph % 2^64 * 2^128 + x.tstart % 2^64 * 2^192 + x.tend % 2^64 * 2^256
    + (if f ∧ x.fkind = 21 then ((x.rdet.find? fun q => q.1 == x.fsect).map (·.2)).getD 0 % 2^32 else 0) * 2^320
    + x.lid.toNat * 2^352 + (if f then x.fsect % 256 else 0) * 2^416 + (if f then x.fkind % 256 else 0) * 2^424)

/-- The last sequence number from l on below which every one is in the list, modulo 2^32 (R356). -/
def contiguous (done : List Nat) : Nat → Nat → Nat
  | 0, l => l
  | k + 1, l => if done.contains ((l + 1) % 2^32) then contiguous done k ((l + 1) % 2^32) else l

/-- A user queue's entry has completed: LCMP rises to the last sequence below which all have (R356, R358). -/
def UserQueue.complete (q : UserQueue) (seq : Nat) : UserQueue :=
  let l := contiguous (seq :: q.completed) (q.completed.length + 1) q.lcmp.toNat
  { q with lcmp := BitVec.ofNat 32 l, completed := (seq :: q.completed).filter fun n => decide (0 < (n + 2^32 - l) % 2^32 ∧ (n + 2^32 - l) % 2^32 < 2^31) }

/-- Change a user queue's control block. -/
def State.modQueue (s : State) (k : Nat) (f : UserQueue → UserQueue) : State :=
  s.modHost fun h => { h with queues := modify (fun q => q.q == k) f h.queues }

/-- An entry of a user queue has completed (R358). -/
def State.completeEntry (s : State) (q : Option (Nat × Nat)) : State :=
  match q with
  | some (k, seq) => s.modQueue k fun q => q.complete seq
  | none => s

/-- The end of a launch (R267, R358): the record, then the signal, then the context's end. -/
def State.endLaunch (s : State) (x : Ctx) (lost : Bool) : State :=
  (((s.write x.crec (leBytes 64 (x.completion lost).toNat)).postCounter (.launch x.lid) x.csig).endContext x.id).completeEntry x.queue

/-- The tokens of a context at the ingress, in flight in the device, in receive queues and in what was saved of it, which a lost context
counts as orphans (R302). -/
def State.tokensHeld (s : State) (ctx : Nat) : Nat :=
  let parts := (s.cores.filter fun y => y.ctx == ctx).filterMap (·.part)
  let held (p : SavedPart) : Nat :=
    (p.drawers.map fun d => (d.a.toList ++ d.b.toList ++ d.p.toList).length).sum
      + ((p.ready ++ p.cwait).map fun r => (r.a.toList ++ r.b.toList ++ r.p.toList).length).sum + ((p.ctl.map fun c => c.rq.length).getD 0)
      + p.ingress.length
  ((s.flow.net ++ s.flow.ingress ++ s.fabric.refused).filter fun t => t.tok.ctx == ctx).length
    + ((s.ctls.filter fun c => c.owner == some ctx).map fun c => c.rq.length).sum + (parts.map held).sum

/-- The tokens of a context in flight in the device go: they are orphans (R302). -/
def State.dropInFlight (s : State) (ctx : Nat) : State := s.modFlow fun w => { w with net := w.net.filter fun nt => nt.tok.ctx != ctx }

/-- CONTEXT_LOST (R302): every section seals without error-EOS, the completion record is written with LOST, CSIG is posted, and the
context's cores return; FKIND is context lost, and FSECT stays that of the first seal, 0 where none was (R267; log 96). -/
def execContextLost (ctx : Nat) (s : State) : Host.Outcome State Fault Refusal :=
  match s.ctx? ctx with
  | some x =>
    if x.phase = .lost ∧ s.serves .contexts then
      let waiting := (s.flow.drawers.filter fun d => d.ctx == ctx).map fun d => (d.a.toList ++ d.b.toList ++ d.p.toList).length
      let ready := ((s.flow.ready ++ s.flow.cwait).filter fun r => r.ctx == ctx).map fun r => (r.a.toList ++ r.b.toList ++ r.p.toList).length
      let x := { x with faults := x.faults + 1, sealed := true, orph := x.orph + waiting.sum + ready.sum + s.tokensHeld ctx, tend := s.ck,
                        fkind := 20, fsect := if x.faults = 0 then 0 else x.fsect }
      finish s ((s.dropInFlight ctx).endLaunch x true)
    else finish s s
  | none => finish s s

end Sys2Proof.Machine
end

