-- ==== Sys2Proof/Machine/Issue.lean ====
section
/-! DEFINITION. Which firing an engine issues (R23, R166, R174 to R176, R192, R304). -/

namespace Sys2Proof.Machine

/-- The plan of an operator: what its meaning carries out at issue. MCONT of a loaded slot raises operand (R310). -/
def planOf : Instr → Option (State → Firing → Slot → CoreCtx → Ctx → Plan)
  | .vadd o => some (planVadd o)
  | .vsub o => some (planVsub o)
  | .vmul o => some (planVmul o)
  | .vfma o => some (planVfma o)
  | .vfms o => some (planVfms o)
  | .vdiv o => some (planVdiv o)
  | .vsqrt o => some (planVsqrt o)
  | .vrcp o => some (planVrcp o)
  | .vrsq o => some (planVrsq o)
  | .vexp o => some (planVexp o)
  | .vexp2 o => some (planVexp2 o)
  | .vlog2 o => some (planVlog2 o)
  | .vtanh o => some (planVtanh o)
  | .vsigm o => some (planVsigm o)
  | .vmax o => some (planVmax o)
  | .vmin o => some (planVmin o)
  | .vabs o => some (planVabs o)
  | .vneg o => some (planVneg o)
  | .vcps o => some (planVcps o)
  | .vsclx o => some (planVsclx o)
  | .vcvt o => some (planVcvt o)
  | .vcmpEq o => some (planVcmpEq o)
  | .vcmpNe o => some (planVcmpNe o)
  | .vcmpLt o => some (planVcmpLt o)
  | .vcmpLe o => some (planVcmpLe o)
  | .vcmpUn o => some (planVcmpUn o)
  | .vselm o => some (planVselm o)
  | .viadd o => some (planViadd o)
  | .visub o => some (planVisub o)
  | .vimul o => some (planVimul o)
  | .viand o => some (planViand o)
  | .vior o => some (planVior o)
  | .vixor o => some (planVixor o)
  | .vishl o => some (planVishl o)
  | .vishr o => some (planVishr o)
  | .vimin o => some (planVimin o)
  | .vimax o => some (planVimax o)
  | .rsumr o => some (planRsumr o)
  | .rmaxr o => some (planRmaxr o)
  | .rminr o => some (planRminr o)
  | .rsumc o => some (planRsumc o)
  | .rmaxc o => some (planRmaxc o)
  | .vexpd o => some (planVexpd o)
  | .vrdiv o => some (planVrdiv o)
  | .topk o => some (planTopk o)
  | .ttrn o => some (planTtrn o)
  | .tbrd o => some (planTbrd o)
  | .tslc o => some (planTslc o)
  | .tcat o => some (planTcat o)
  | .tfill o => some (planTfill o)
  | .tiota o => some (planTiota o)
  | .tperm o => some (planTperm o)
  | .had o => some (planHad o)
  | .mma o => some (planMma o)
  | .mmaz o => some (planMmaz o)
  | .mmat o => some (planMmat o)
  | .mmatz o => some (planMmatz o)
  | .cmma o => some (planCmma o)
  | .cmmaz o => some (planCmmaz o)
  | .qmma o => some (planQmma o)
  | .qmmaz o => some (planQmmaz o)
  | .accld o => some (planAccld o)
  | .accst o => some (planAccst o)
  | .accz o => some (planAccz o)
  | .accscl o => some (planAccscl o)
  | .steer o => some (planSteer o)
  | .select o => some (planSelect o)
  | .merge o => some (planMerge o)
  | .gate o => some (planGate o)
  | .sync o => some (planSync o)
  | .sink o => some (planSink o)
  | .pass o => some (planPass o)
  | .cola o => some (planCola o)
  | .colf o => some (planColf o)
  | .itnx o => some (planItnx o)
  | .itex o => some (planItex o)
  | .fork o => some (planFork o)
  | .pand o => some (planPand o)
  | .por o => some (planPor o)
  | .pnot o => some (planPnot o)
  | .pcnst o => some (planPcnst o)
  | .psn o => some (planPsn o)
  | .ptst o => some (planPtst o)
  | .seal o => some (planSeal o)
  | .trapo o => some (planTrapo o)
  | .dbrk o => some (planDbrk o)
  | .dstp o => some (planDstp o)
  | .dhld o => some (planDhld o)
  | .tld o => some (planTld o)
  | .tldg o => some (planTldg o)
  | .tst o => some (planTst o)
  | .tsts o => some (planTsts o)
  | .sld o => some (planSld o)
  | .sst o => some (planSst o)
  | .atad o => some (planAtad o)
  | .atmn o => some (planAtmn o)
  | .atmx o => some (planAtmx o)
  | .atxc o => some (planAtxc o)
  | .atcs o => some (planAtcs o)
  | .fncEngine o => some (planFncEngine o)
  | .fncCore o => some (planFncCore o)
  | .fncQuad o => some (planFncQuad o)
  | .fncCluster o => some (planFncCluster o)
  | .fncDie o => some (planFncDie o)
  | .fncDevice o => some (planFncDevice o)
  | .fncSystem o => some (planFncSystem o)
  | .rpush o => some (planRpush o)
  | .rpop o => some (planRpop o)
  | .stadv o => some (planStadv o)
  | .cnadd o => some (planCnadd o)
  | .cnwt o => some (planCnwt o)
  | .cnrd o => some (planCnrd o)
  | .shop o => some (planShop o)
  | .publ o => some (planPubl o)
  | .nmiv o => some (planNmiv o)
  | .mcst o => some (planMcst o)
  | .cmpr o => some (planCmpr o)
  | .lnchOperator o => some (planLnchOperator o)
  | .chsv o => some (planChsv o)
  | .chrs o => some (planChrs o)
  | .chrp o => some (planChrp o)
  | .tkrp o => some (planTkrp o)
  | .tkcl o => some (planTkcl o)
  | .tkq o => some (planTkq o)
  | .bara o => some (planBara o)
  | .barw o => some (planBarw o)
  | .mcont _ => some fun _ _ _ _ _ => Plan.faults 1
  | _ => none

/-! ### The firing of an entry -/

/-- Whether every declared data port of a matched Drawer holds EOS (R26). -/
def Ready.allEos (r : Ready) (t : Slot) : Bool :=
  (t.declares 0 || t.declares 1) && (!t.declares 0 || isEos r.a) && (!t.declares 1 || isEos r.b)

/-- The firing of a matched Drawer at its issue (R24). -/
def Ready.firing (r : Ready) (t : Slot) (id : Nat) : Firing :=
  { id := id, core := r.core, ctx := r.ctx, eng := r.eng, slot := r.slot, sect := t.sect, op := wordOp t.word, col := r.col,
    tag := tokTag t r.a r.b r.p, a := r.a, b := r.b, p := r.p, got := r.got, outCol := r.col, outTag := 0, freeCol := none, outs := [],
    release := [], phase := .issuing, start := 0, due := 0, genHeld := false, strm := 0, inOrder := false, order := none, job := .none, prog := 0,
    sealed := false, eos := r.allEos t, psum := none, busy := 0, occ := 0, born := 0, mseq := r.seq, mck := r.ck }

/-- What an engine may choose: a product that its context's continuation block resumes (R310), a stopped firing that goes on (R296), or a
matched Drawer. -/
inductive Pick where
  | resume (f : Firing)
  | goOn (f : Firing)
  | entry (r : Ready)
deriving DecidableEq, Repr

/-- The ck in which a pick was matched (R175). -/
def Pick.age : Pick → Nat
  | .resume f | .goOn f => f.mck
  | .entry r => r.ck

/-- The word of `MCONT a -> e1` (R310). -/
def mcontWord : BitVec 32 := 0x0D140800

/-- The instruction of a pick: MCONT, an EOS firing, or the operator of the slot's word; none for a word that GLOAD rejects, and for a
firing that goes on, which issues nothing. -/
def Pick.instr (t : Slot) : Pick → Option Instr
  | .goOn _ => none
  | .resume _ => some (.mcont (wordFields mcontWord))
  | .entry r => if r.allEos t then some .eosFiring else decodeOperator t.word

/-- The slot of a pick. -/
def State.pickSlot (s : State) : Pick → Option Slot
  | .resume f | .goOn f => s.slot? f.core f.ctx f.eng f.slot
  | .entry r => s.slot? r.core r.ctx r.eng r.slot

/-- The firing of a pick. -/
def Pick.firing (t : Slot) (id : Nat) : Pick → Firing
  | .resume f | .goOn f => f
  | .entry r => r.firing t id

/-- The plan of a pick, as its meaning forms it; none where the word is none of the operators. -/
def State.pickPlan (s : State) (k : Pick) (t : Slot) : Option Plan :=
  let f := k.firing t s.nextId
  match k, s.cctx? f.core f.ctx, s.ctx? f.ctx with
  | .resume _, _, _ | .goOn _, _, _ => some {}
  | .entry _, some y, some x =>
    if f.eos then some (if wordOp t.word = 0x2B then markerPlan 1 (sendFields t.word) s f t y else eosPlan (sendFields t.word))
    else if (t.declares 0 && isEos f.a) || (t.declares 1 && isEos f.b) then some (Plan.faults 7)
    else ((decodeOperator t.word).bind planOf).map fun p => p s f t y x
  | _, _, _ => none

/-! ### Resources (R174) -/

/-- Whether a request of an engine for space waits, which holds the whole engine (R12, R119). -/
def State.spaceHeld (s : State) (core : Nat) (e : Eng) : Bool :=
  s.flow.reqs.any fun q => q.core == core && match q.who with
    | .firing id | .psum id => (s.firing? id).any fun f => f.eng == e
    | .saveArea _ => e == .m
    | .packet _ => false

/-- Whether an entry's firing takes a colour: the tag action NEWC, or COLA with its effect (R26, R166). -/
def Ready.asks (r : Ready) (t : Slot) : Bool := (wordFields t.word).tag == 6 || (wordOp t.word == 0x85 && !r.allEos t)

/-- Whether a plan's resources are free on a core (R174, R315); a firing that faults at issue needs only the engine, which for a
memory firing is a generator. -/
def State.roomFor (s : State) (core : Nat) (e : Eng) (p : Plan) (memory : Bool) : Bool :=
  (if p.gen || (memory && p.fault.isSome) then s.generatorFree core else true)
    && (p.fault.isSome || p.halt.isSome
      || ((p.chest.isNone || s.chestRoom core) && (!p.bench || (freeBench (s.benchOf core)).isSome)
        && (!p.notice || decide ((s.ctl core).trapos.length < 8)) && (e != .m || !s.spaceHeld core .m)))

/-- The plan of a pick with the fault of its tag action, if that is where it faults (R116, R164, R167, R174). -/
def State.pickFault (s : State) (f : Firing) (t : Slot) (p : Plan) : Plan :=
  match p.fault, p.halt, s.cctx? f.core f.ctx, s.ctx? f.ctx with
  | none, none, some y, some x => { p with fault := tagFault x y f t (wordFields t.word) }
  | _, _, _, _ => p

/-- Whether a NEWC firing of S finds a generator, which its request and its issue after a colour wait need (R192). -/
def State.colourRoom (s : State) (f : Firing) (t : Slot) : Bool :=
  f.eng != .s || (wordFields t.word).tag != 6 || s.generatorFree f.core

/-- Whether a pick can issue now, once its engine is free: its plan's resources, and for a colour the engine's one request
(R166, R174, R192). A firing that faults at issue is not asked for its colour. -/
def State.canIssue (s : State) (k : Pick) : Bool :=
  match s.pickSlot k with
  | none => false
  | some t =>
    let f := k.firing t s.nextId
    match k, s.pickPlan k t with
    | .resume _, _ | .goOn _, _ => true
    | .entry _, none => true
    | .entry r, some p =>
      let p := s.pickFault f t p
      s.roomFor f.core f.eng p (isMemoryOp f.op)
        && (p.fault.isSome || (s.colourRoom f t && (!r.asks t || r.got.isSome || !s.askedNow f.core f.eng)))

/-! ### The choice -/

/-- Whether a debugger's stop holds an engine for a context (R304, R306, R317). -/
def State.debugStopped (s : State) (core ctx : Nat) (e : Eng) : Bool :=
  match s.cctx? core ctx with
  | some y => y.stops.any fun t => t.e == engCode e && (t.reason == 1 || t.reason == 3 || t.reason == 4)
  | none => false

/-- Whether a context's firings may issue or go on on an engine: it runs, and no debugger stops it (R284, R304). -/
def State.mayIssue (s : State) (core : Nat) (e : Eng) (y : CoreCtx) : Bool :=
  s.runs y.ctx && !y.saved && !s.debugStopped core y.ctx e

/-- Whether a matched Drawer can still fire: its slot is loaded and its section not spent, finished or sealed here (R162, R297). -/
def State.alive (s : State) (y : CoreCtx) (r : Ready) : Bool :=
  match s.slot? r.core r.ctx r.eng r.slot with
  | some t => !s.deadOn y t.sect
  | none => false

/-- The firings of a context in an engine's colour wait (R166). -/
def State.waiters (s : State) (core ctx : Nat) (e : Eng) : List Ready :=
  s.flow.cwait.filter fun r => r.core == core && r.ctx == ctx && r.eng == e

/-- Whether an engine passes over an entry: it would ask for a colour while its colour wait holds 16 firings (R166). -/
def State.passedOver (s : State) (r : Ready) : Bool :=
  match s.slot? r.core r.ctx r.eng r.slot with
  | some t => r.asks t && r.got.isNone && decide (16 ≤ (s.waiters r.core r.ctx r.eng).length)
  | none => false

/-- Whether one entry stands before another in ready order: continued by the debugger, then matched in an earlier ck, then in a
lower slot, then earlier (R23, R304). -/
def Ready.ahead (r q : Ready) : Bool :=
  if r.cont ∧ q.cont then decide (r.seq < q.seq)
  else if r.cont then true
  else if q.cont then false
  else decide (r.ck < q.ck) || (decide (r.ck = q.ck) && (decide (r.slot < q.slot) || (decide (r.slot = q.slot) && decide (r.seq < q.seq))))

/-- The head of a context on an engine (R174). -/
def State.head (s : State) (core : Nat) (e : Eng) (y : CoreCtx) : Option Ready :=
  (s.flow.ready.filter fun r => r.core == core && r.ctx == y.ctx && r.eng == e && s.alive y r && !s.passedOver r).foldl
    (fun acc r => match acc with
      | none => some r
      | some q => if r.ahead q then some r else some q) none

/-- The firing of a context on an engine that a halt has stopped and that goes on as soon as the engine, or a generator of S for its rows, is
free (R127, R141, R296); M's product that has a continuation block is MCONT's instead. -/
def State.stoppedFiring (s : State) (core : Nat) (e : Eng) (y : CoreCtx) : Option Firing :=
  s.flow.firings.find? fun f => f.core == core && f.ctx == y.ctx && f.eng == e && f.phase == Phase.stopped && f.needsEngine
    && !(f.isProduct && y.cont.isSome) && (!(f.genHeld && f.job.holdsGen) || s.generatorFree core)

/-- What a context would issue on an engine (R166, R174, R176, R296, R304, R310): a resumed product, a stopped firing that goes on, and while
it has energy a waiting firing that has its colour, or its head. -/
def State.pickOf (s : State) (core : Nat) (e : Eng) (y : CoreCtx) : Option Pick :=
  let resumed := if e = .m ∧ y.cont.isSome = true then
      s.flow.firings.find? fun f => f.core == core && f.ctx == y.ctx && f.eng == .m && f.isProduct
    else none
  match resumed, s.stoppedFiring core e y with
  | some f, _ => some (.resume f)
  | none, some f => some (.goOn f)
  | none, none =>
    if y.ebudget = 0 then none else
    let waiting := (s.waiters core y.ctx e).filter fun r => r.got.isSome && s.alive y r && s.canIssue (.entry r)
    match waiting with
    | r :: _ => some (.entry r)
    | [] =>
      match s.head core e y with
      | some r => if s.canIssue (.entry r) then some (.entry r) else none
      | none => none

/-- A context's effective level for a pick (R175). -/
def State.level (s : State) (ctx : Nat) (k : Pick) : Nat :=
  match s.ctx? ctx with
  | some x => min 3 (x.prio + (s.ck + 2^64 - k.age) % 2^64 / x.agewin)
  | none => 0

/-- Whether one context's pick goes before another's (R175): the higher level, then the earlier match, then the lower id. -/
def State.before (s : State) (p q : Nat × Pick) : Bool :=
  let lp := s.level p.1 p.2
  let lq := s.level q.1 q.2
  decide (lq < lp) || (decide (lp = lq) && (decide (p.2.age < q.2.age) || (decide (p.2.age = q.2.age) && decide (p.1 < q.1))))

/-- The pick that goes first among those of some contexts on an engine (R175). -/
def State.firstPick (s : State) (core : Nat) (e : Eng) (ys : List CoreCtx) : Option (Nat × Pick) :=
  (ys.filterMap fun y => (s.pickOf core e y).map fun k => (y.ctx, k)).foldl (fun acc p => match acc with
    | none => some p
    | some q => if s.before p q then some p else some q) none

/-- Whether an engine is free for another firing in this ck (R19). -/
def State.engineFree (s : State) (core : Nat) (e : Eng) : Bool := !(s.issuedNow core e || s.occupied core e || s.spaceHeld core e)

/-- What an engine issues now: the context and its pick (R23, R175). -/
def State.choice (s : State) (core : Nat) (e : Eng) : Option (Nat × Pick) :=
  if s.engineFree core e then s.firstPick core e (s.cores.filter fun y => y.core == core && s.mayIssue core e y) else none

/-! ### Breakpoints and issue -/

/-- Whether an operator breakpoint fires for an entry (R65, R304). -/
def Ready.breaks (r : Ready) (t : Slot) : Bool := t.breaksAt r.col && !r.cont

/-- Take a pick out of its queue and make it the firing being issued. -/
def State.take (s : State) (k : Pick) (t : Slot) : State :=
  let s := match k with
    | .resume _ | .goOn _ => s
    | .entry r => s.modFlow fun w => { w with
        ready := w.ready.filter fun q => !(q.core == r.core && q.eng == r.eng && q.seq == r.seq)
        cwait := w.cwait.filter fun q => !(q.core == r.core && q.eng == r.eng && q.seq == r.seq) }
  { s with firing := some (k.firing t s.nextId), nextId := s.nextId + 1 }

/-- What comes of an engine's choice: a state, where a breakpoint stops the engine or a stopped firing goes on; or an instruction to run in
a state that holds its firing. -/
inductive Chosen where
  | none
  | done (s : State)
  | illegal (w : BitVec 32)
  | run (i : Instr) (s : State)

/-- Carry a choice up to the instruction (R296, R304). -/
def State.chosen (s : State) (core : Nat) (e : Eng) : Chosen :=
  match s.choice core e with
  | Option.none => .none
  | some (_, .goOn f) => .done (s.goOn f)
  | some (_, k) =>
    match s.pickSlot k with
    | Option.none => .none
    | some t =>
      let stops := match k with
        | .entry r => r.breaks t
        | .resume _ | .goOn _ => false
      if stops then .done (s.debugStop 1 (k.firing t s.nextId))
      else match k.instr t with
        | some i => .run i (s.take k t)
        | Option.none => .illegal t.word

end Sys2Proof.Machine
end

