-- ==== Sys2Proof/Machine/Debug.lean ====
section
/-! DEFINITION. The debugger: continue and single-step (R304 to R306, R317). An engine number is 0 M, 1 V, 2 S, 3 the control
core. -/

namespace Sys2Proof.Machine

/-- Remove the debugger's stops of an engine for a context on a core (R304, R306, R317). -/
def State.liftStops (s : State) (core ctx e : Nat) : State :=
  s.modCctx core ctx fun y => { y with stops := y.stops.filter fun t => !(t.e == e && (t.reason == 1 || t.reason == 3 || t.reason == 4)) }

/-- The slot and colour at which a breakpoint holds an engine for a context, from its stop record (R304, R308). -/
def CoreCtx.heldAt (y : CoreCtx) (e : Nat) : Option (Nat × Nat) :=
  (y.stops.find? fun t => t.e == e && t.reason == 1).map fun t =>
    ((t.record.extractLsb' 177 9).toNat, (t.record.extractLsb' 186 6).toNat)

/-- The held firing is marked: it issues first, and its breakpoint does not fire again (R304). -/
def State.passHeld (s : State) (core ctx : Nat) (e : Eng) (at_ : Nat × Nat) : State :=
  let key (r : Ready) : Bool := r.core == core && r.ctx == ctx && r.eng == e && r.slot == at_.1 && r.col == at_.2
  match s.flow.ready.findIdx? key with
  | some i => s.modFlow fun w => { w with ready := w.ready.modify i fun r => { r with cont := true } }
  | none => s

/-- Continue an engine for one context on a core: its stops go, and the firing held at a breakpoint goes first (R304). -/
def State.continueEngine (s : State) (y : CoreCtx) (e : Nat) : State :=
  let t := s.liftStops y.core y.ctx e
  match y.heldAt e with
  | some at_ => t.passHeld y.core y.ctx (engOfCode e) at_
  | none => t

/-- The debugger continues a context that DHLD has halted: that cause goes, and the context resumes as in R290 unless another cause
still holds it (R317). -/
def State.endDhld (s : State) (ctx : Nat) : State :=
  match s.ctx? ctx with
  | some x =>
    if x.phase = .halted ∧ (x.causes.any fun c => c.kind == 0) = true then
      let t := s.modCtx ctx fun x => { x with causes := x.causes.filter fun c => c.kind != 0 }
      if x.causes.all fun c => c.kind == 0 then t.resumeHalted ctx else t
    else s
  | none => s

/-- `dolz` lets go every context with a part on a core, and ends what DHLD holds of them (R193, R317, R321). -/
def State.letGoHere (s : State) (core : Nat) : State :=
  (s.cores.filter fun y => y.core == core).foldl (fun s y => (s.letGo y.ctx).endDhld y.ctx) s

/-- `break fault` for a context that `dolz` is attached to, on or off (R321). -/
def State.breakOnFault (s : State) (ctx : Nat) (on : Bool) : State :=
  s.modCtx ctx fun x => if x.dolz then { x with watch := { x.watch with onFault := on } } else x

/-- Continue a stopped control core; a comparator that stopped it does not fire again for the instruction at its pc (R305). A core
stopped by a double trap does not go on (R94). -/
def Ctl.resume (c : Ctl) : Ctl :=
  match c.run with
  | .stopped r => if r = 6 then c else { c with run := .running, brkPassed := decide (r = 2) }
  | _ => c

/-- DEBUG_CONTINUE (R193, R304, R305, R317, R321): `dolz` lets the contexts of a core go, and engine e of it goes on for every context
that the debugger has stopped there. -/
def execDebugContinue (core : Nat) (e : Nat) (s : State) : Host.Outcome State Fault Refusal :=
  let t := s.letGoHere core
  if e = 3 then finish s (t.setCtl (t.ctl core).resume)
  else if e < 3 then finish s ((t.cores.filter fun y => y.core == core && !y.saved).foldl (fun s y => s.continueEngine y e) t)
  else finish s t

/-- Run the meaning of a pick's instruction (R19, R26, R310). -/
def issuePick (s : State) (k : Pick) (t : Slot) : Host.Outcome State Fault Refusal :=
  let u := s.take k t
  match k.instr t with
  | some (.mcont o) => execMcont o u
  | some .eosFiring => execEosFiring u
  | some i => match planOf i with
    | some p => issueWith u (wordFields t.word) p
    | none => finish s s
  | none => .fault (.illegalOperatorWord t.word)

/-- Whether a context may be stepped on an engine: the debugger is attached to it or has stopped it there. -/
def State.steppable (s : State) (y : CoreCtx) (e : Nat) : Bool :=
  !y.saved && s.lineLow y.ctx && decide (y.ebudget ≠ 0)
    && (((s.ctx? y.ctx).map (·.dolz)).getD false || y.stops.any fun t => t.e == e && (t.reason == 1 || t.reason == 3 || t.reason == 4))

/-- Stop an engine for a context behind the firing of a single-step, which completes and sends (R306). -/
def State.stepStop (s : State) (f : Firing) : State :=
  let r := StopInfo.word { ck := s.ck, tag := f.tag.toNat, sect := f.sect, reason := 3, ctx := f.ctx, col := f.col, slot := f.slot,
                           core := f.core, e := engCode f.eng, valid := true }
  (s.writeStop f.ctx f.core (engCode f.eng) r).addStop f.core f.ctx
    { e := engCode f.eng, reason := 3, record := r, stepped := some f.id }

/-- Step one context on an engine (R306): its next firing issues, with a stop of reason 3 behind it, which the debugger receives once
the firing has sent, or at once where it faulted; a breakpoint not yet passed stops it instead (R304). A firing that only enters the
colour wait or raises the halt line leaves the stops as they were. -/
def stepEngine (s : State) (y : CoreCtx) (e : Nat) (k : Pick) : Host.Outcome State Fault Refusal :=
  let eng := engOfCode e
  match s.pickSlot k with
  | none => finish s s
  | some t =>
    let f := k.firing t s.nextId
    let stops := match k with
      | .entry r => r.breaks t
      | .resume _ | .goOn _ => false
    if stops then finish s ((s.liftStops y.core y.ctx e).debugStop 1 f)
    else match issuePick ((s.liftStops y.core y.ctx e).stepStop f) k t with
      | .next u =>
        if u.issuedNow y.core eng then .next (if (u.firing? f.id).isNone then u.stepDone f else u) else issuePick s k t
      | o => o

/-- A context as a single-step of an engine finds it: let go, and with the firing that a breakpoint holds first (R193, R304, R306). -/
def State.readied (s : State) (y : CoreCtx) (e : Nat) : State :=
  match y.heldAt e with
  | some at_ => (s.letGo y.ctx).passHeld y.core y.ctx (engOfCode e) at_
  | none => s.letGo y.ctx

/-- SINGLE_STEP (R193, R306): `dolz` lets the stepped context go; an engine issues one firing, that which goes first
among those of the contexts that it may step, or a control core executes one instruction. -/
def execSingleStep (core : Nat) (e : Nat) (s : State) : Host.Outcome State Fault Refusal :=
  if e = 3 then
    let t := match (s.ctl core).owner with
      | some ctx => s.letGo ctx
      | none => s
    let c := (t.ctl core).resume
    if c.run = .running then finish s (t.setCtl { c with steps := some 1 }) else finish s s
  else if e < 3 ∧ s.engineFree core (engOfCode e) = true then
    let ys := s.cores.filter fun y => y.core == core && s.steppable y e
    match (ys.foldl (fun t y => t.readied y e) s).firstPick core (engOfCode e) ys with
    | none => finish s s
    | some (ctx, k) => match s.cctx? core ctx with
      | none => finish s s
      | some y => match k with
        | .goOn f => finish s ((s.readied y e).goOn f)
        | k => stepEngine (s.readied y e) y e k
  else finish s s

end Sys2Proof.Machine
end

