-- ==== Sys2Proof/Machine/Gcm.lean ====
section
/-! DEFINITION. AES-256-GCM (R332, R334), the standard's cipher (FIPS 197, SP 800-38D) with a nonce of 96 bits: 16-byte blocks are
numbers whose first byte is the highest. -/

namespace Sys2Proof.Machine.Gcm

/-! ### AES-256 -/

/-- Multiplication by x in the field of bytes. -/
def xtime (a : Byte) : Byte := (a <<< 1) ^^^ (if a.getLsbD 7 then 0x1B else 0)

/-- The product of two bytes in the field of bytes. -/
def byteMul (a b : Byte) : Byte :=
  ((List.range 8).foldl (fun (q : Byte × Byte) i => (if b.getLsbD i then q.1 ^^^ q.2 else q.1, xtime q.2)) (0, a)).1

/-- The inverse of a byte, and 0 of 0: its 254th power. -/
def byteInv (a : Byte) : Byte :=
  ((List.range 7).foldl (fun (q : Byte × Byte) _ => let r := byteMul q.2 q.2; (byteMul q.1 r, r)) (1, a)).1

/-- The S-box. -/
def sbox (a : Byte) : Byte :=
  let b := byteInv a
  b ^^^ b.rotateLeft 1 ^^^ b.rotateLeft 2 ^^^ b.rotateLeft 3 ^^^ b.rotateLeft 4 ^^^ 0x63

/-- The exclusive or of two runs of bytes. -/
def xorBytes (a b : List Byte) : List Byte := List.zipWith (· ^^^ ·) a b

/-- The round constants: powers of x. -/
def rcon : Nat → Byte
  | 0 => 1
  | n + 1 => xtime (rcon n)

/-- Word i of the key schedule from the words before it, newest first. -/
def scheduleWord (i : Nat) (ws : List (List Byte)) : List Byte :=
  let last := ws.headD []
  let old := ws.getD 7 []
  let t :=
    if i % 8 = 0 then xorBytes ((last.drop 1 ++ last.take 1).map sbox) [rcon (i / 8 - 1), 0, 0, 0]
    else if i % 8 = 4 then last.map sbox
    else last
  xorBytes old t

/-- The bytes of the key schedule: 60 words, the first 8 the key. -/
def keySchedule (key : List Byte) : List Byte :=
  let first := ((List.range 8).map fun i => (key.drop (4 * i)).take 4).reverse
  ((List.range 52).foldl (fun ws i => scheduleWord (i + 8) ws :: ws) first).reverse.flatten

/-- The rows of a state, shifted: byte r of column c comes from column c + r. -/
def shiftRows (st : List Byte) : List Byte :=
  (List.range 16).map fun i => st.getD (i % 4 + 4 * ((i / 4 + i % 4) % 4)) 0

/-- The columns of a state, mixed. -/
def mixColumns (st : List Byte) : List Byte :=
  (List.range 16).map fun i =>
    let b (k : Nat) : Byte := st.getD (i / 4 * 4 + (i + k) % 4) 0
    xtime (b 0) ^^^ (xtime (b 1) ^^^ b 1) ^^^ b 2 ^^^ b 3

/-- The key of round r. -/
def roundKey (ks : List Byte) (r : Nat) : List Byte := (ks.drop (16 * r)).take 16

/-- AES-256 of one block under a key schedule. -/
def encryptBlock (ks : List Byte) (block : List Byte) : List Byte :=
  let st := (List.range 13).foldl (fun st r => xorBytes (mixColumns (shiftRows (st.map sbox))) (roundKey ks (r + 1)))
    (xorBytes block (roundKey ks 0))
  xorBytes (shiftRows (st.map sbox)) (roundKey ks 14)

/-! ### GCM -/

/-- A number's n bytes, the highest first. -/
def beBytes (n v : Nat) : List Byte := ((List.range n).map fun i => BitVec.ofNat 8 (v / 256^i)).reverse

/-- The number of bytes whose first is the highest. -/
def beNat (bs : List Byte) : Nat := bs.foldl (fun a b => 256 * a + b.toNat) 0

/-- The product of two blocks in GCM's field. -/
def blockMul (x y : BitVec 128) : BitVec 128 :=
  let step (q : BitVec 128 × BitVec 128) (i : Nat) : BitVec 128 × BitVec 128 :=
    (if x.getLsbD (127 - i) then q.1 ^^^ q.2 else q.1,
      if q.2.getLsbD 0 then (q.2 >>> 1) ^^^ (0xE1 : BitVec 128) <<< 120 else q.2 >>> 1)
  ((List.range 128).foldl step (0, y)).1

/-- The 16-byte blocks of some bytes, the last filled with 0; `fuel` bounds their number. -/
def blocks : Nat → List Byte → List (BitVec 128)
  | 0, _ => []
  | _ + 1, [] => []
  | fuel + 1, b :: t =>
    let c := (b :: t).take 16
    BitVec.ofNat 128 (beNat (c ++ List.replicate (16 - c.length) 0)) :: blocks fuel ((b :: t).drop 16)

/-- GHASH of blocks. -/
def ghash (h : BitVec 128) (xs : List (BitVec 128)) : BitVec 128 := xs.foldl (fun a x => blockMul (a ^^^ x) h) 0

/-- The key stream from counter block i on, as many bytes as are asked for, in blocks of 16. -/
def keyStream (ks : List Byte) (nonce : List Byte) (n : Nat) : List Byte :=
  (List.range ((n + 15) / 16)).flatMap fun i => encryptBlock ks (nonce ++ beBytes 4 (i + 2))

/-- The text under the key stream: encryption and decryption alike. -/
def crypt (key nonce text : List Byte) : List Byte := xorBytes text (keyStream (keySchedule key) nonce text.length)

/-- The tag of a ciphertext with its additional authenticated data. -/
def tag (key nonce aad cipher : List Byte) : List Byte :=
  let ks := keySchedule key
  let h := BitVec.ofNat 128 (beNat (encryptBlock ks (List.replicate 16 0)))
  let lens := BitVec.ofNat 128 (8 * aad.length * 2^64 + 8 * cipher.length)
  let g := ghash h (blocks aad.length aad ++ blocks cipher.length cipher ++ [lens])
  xorBytes (beBytes 16 g.toNat) (encryptBlock ks (nonce ++ beBytes 4 1))

end Sys2Proof.Machine.Gcm
end

