-- ==== Sys2Proof/Machine/Launch.lean ====
section
/-! DEFINITION. Launches: the record's checks and the creation of a context (R159, R160, R170, R173, R255 to R259, R278, R291), the
dependence walk (R260), the copy replayer (R252, R261 to R263) and completion (R267). -/

namespace Sys2Proof.Machine

/-! ### The launch record (R255) -/

/-- A launch record as read. -/
structure LaunchRec where
  placed : Bool
  hdr : Word
  lid : Word
  creq : Word
  ebud : Word
  erat : Word
  tvec : Word
  crec : Nat
  csig : Word
  cores : BitVec 384
  grps : Word
  objs : Word
  sects : Word
  sched : Word
  edges : Word
  ctls : Word
  excl : BitVec 256
  rest : Nat

/-- Whether a launch record lies in memory: a record in one run lies in one memory. -/
def recordPlaced (ps : List Nat) : Bool := if ps = runPlaces (ps.headD 0) then assigned (ps.headD 0) 256 else ps.all fun a => assigned a 64

/-- Read the launch record whose four runs of 64 bytes lie at given places (R203, R255, R278). -/
def State.launchRec (s : State) (ps : List Nat) : LaunchRec :=
  let at_ (o : Nat) : Nat := ps.getD (o / 64) 0 + o % 64
  let w (o : Nat) : Word := s.readWord (at_ o)
  { placed := recordPlaced ps, hdr := w 0, lid := w 8, creq := w 16, ebud := w 24, erat := w 32, tvec := w 40, crec := (w 48).toNat, csig := w 56,
    cores := BitVec.ofNat 384 (s.readNat (at_ 64) 48), grps := w 112, objs := w 120, sects := w 128, sched := w 136, edges := w 144,
    ctls := w 152, excl := BitVec.ofNat 256 (s.readNat (at_ 160) 32), rest := s.readNat (at_ 192) 64 }

/-- The device address of a list word. -/
def listBase (w : Word) : Nat := (w.extractLsb' 0 48).toNat

/-- The entries of a list word. -/
def listCount (w : Word) : Nat := (w.extractLsb' 48 16).toNat

/-- The addresses of a list's entries of a size. -/
def listAddrs (w : Word) (size : Nat) : List Nat := (List.range (listCount w)).map fun i => listBase w + size * i

/-- Whether a list word names an aligned list that lies in one memory, or no list. -/
def listOk (w : Word) (size : Nat) : Bool :=
  listCount w == 0 || (listBase w % 8 == 0 && assigned (listBase w) (size * listCount w))

/-- The limits of R159 and R255 on the record's own fields. The size that HDR gives is not among them (log 87). -/
def LaunchRec.fieldsOk (r : LaunchRec) : Bool :=
  let tf := r.creq.extractLsb' 8 24
  let ws := (List.range 4).map (tagWidth tf)
  r.placed && (r.hdr.extractLsb' 0 8).toNat == 1 && (r.hdr.extractLsb' 24 40).toNat == 0
    && (r.creq.extractLsb' 0 6).toNat != 0 && ws.all (fun w => decide (w ≤ 32)) && decide (ws.sum ≤ 32)
    && (r.creq.extractLsb' 32 32).toNat == 0 && (r.ebud.extractLsb' 0 40).toNat != 0 && (r.ebud.extractLsb' 40 24).toNat == 0
    && (r.erat.extractLsb' 32 32).toNat == 0 && r.rest == 0 && r.crec % 64 == 0 && assigned r.crec 64
    && listOk r.grps 64 && decide (listCount r.grps ≤ 256) && listOk r.objs 136 && listOk r.sects 96 && listOk r.sched 64
    && listOk r.edges 4 && listOk r.ctls 64

/-- Whether a set of cores lies in another. -/
def subMask (a b : BitVec 384) : Bool := a &&& ~~~b == 0

/-! ### Groups (R170) -/

/-- The group entries of a record, by number. -/
def State.groupEntries (s : State) (r : LaunchRec) : List (Nat × BitVec 512) :=
  ((listAddrs r.grps 64).map fun a => BitVec.ofNat 512 (s.readNat a 64)).zipIdx.map fun q => (q.2, q.1)

/-- The valid groups of a record. -/
def validGroups (es : List (Nat × BitVec 512)) : List (Nat × BitVec 384) :=
  (es.filter fun q => q.2.getLsbD 384).map fun q => (q.1, q.2.extractLsb' 0 384)

/-- The checks of R170. -/
def groupsOk (cores : BitVec 384) (es : List (Nat × BitVec 512)) : Bool :=
  let gs := validGroups es
  (es.all fun q => (q.2.extractLsb' 385 127).toNat == 0) && (gs.all fun g => subMask g.2 cores)
    && (maskCores cores).all fun c => decide ((gs.filter fun g => inMask g.2 c).length ≤ 4)

/-! ### Sections (R257), copies (R258) and edges (R259) -/

/-- A section entry: the section, and whether the entry's own fields are legal. -/
def State.sectionEntry (s : State) (cores : BitVec 384) (a : Nat) : Section × Bool :=
  let w0 := s.readWord a
  let w1 := s.readWord (a + 8)
  let bl := s.readWord (a + 16)
  let tl := s.readWord (a + 24)
  let cset := BitVec.ofNat 384 (s.readNat (a + 32) 48)
  let blocks := if listOk bl 16 then (listAddrs bl 16).map fun p => ((s.readWord p).toNat % 512, s.readNat (p + 8) 8) else []
  let named := blocks.map (·.1)
  let ok := (w0.extractLsb' 8 56).toNat == 0 && (w1.extractLsb' 0 32).toNat != 0 && (w1.extractLsb' 32 32).toNat == 0
    && listOk bl 16 && listOk tl 32 && s.readNat (a + 80) 16 == 0 && cset != 0 && subMask cset cores
    && named.all (inMask cset) && (blocks.isEmpty || (maskCores cset).all named.contains)
  ({ id := w0.toNat % 256, tiles := w1.toNat % 2^32, blocks := blocks, toks := (listBase tl, listCount tl), cset := cset,
     active := false, finished := false, sealed := false }, ok)

/-- A copy entry that has not begun. -/
def Copy.fresh (e : BitVec 512) : Copy :=
  { entry := e, eligible := false, running := false, rowsDone := 0, got := none, sent := [], src := none, dst := none, srcOrder := 0, dstOrder := 0,
    written := false, posting := false, ended := false }

/-- The checks of R258: reserved bits, the core, and a stage that does not fall within a core's entries. -/
def copiesOk (cores : BitVec 384) : List Copy → Bool
  | [] => true
  | c :: t => c.field 496 16 == 0 && c.field 280 40 == 0 && c.field 88 40 == 0 && decide (c.field 0 16 ≤ 65534)
      && inMask cores c.core && (t.all fun d => d.core != c.core || decide (c.field 0 16 ≤ d.field 0 16)) && copiesOk cores t

/-- The node of a code (R259): sections come first, then copies. -/
def nodeOfCode (sections copies code : Nat) : Option Nat :=
  if code < 2^15 then (if code < sections then some code else none)
  else if code - 2^15 < copies then some (sections + (code - 2^15)) else none

/-- Remove nodes without incoming edges, n times over; what stays lies on a cycle or behind one. -/
def peel : Nat → List Nat → List (Nat × Nat) → List Nat
  | 0, ns, _ => ns
  | k + 1, ns, es =>
    let free := ns.filter fun n => !(es.any fun e => e.2 == n)
    peel k (ns.filter fun n => !free.contains n) (es.filter fun e => !free.contains e.1)

/-- The edges of a record between nodes, if every code names one, none enters a section without blocks, and no cycle is left. -/
def State.edgeList (s : State) (r : LaunchRec) (sects : List Section) (copies : Nat) : Option (List (Nat × Nat)) :=
  let raw := (listAddrs r.edges 4).map fun a => s.readNat a 4
  let es := raw.map fun w => (nodeOfCode sects.length copies (w % 2^16), nodeOfCode sects.length copies (w / 2^16))
  let ok := es.filterMap fun e => match e with
    | (some a, some b) => if (sects[b]?.map fun t => t.blocks.isEmpty).getD false then none else some (a, b)
    | _ => none
  if ok.length = es.length ∧ (peel (sects.length + copies) (List.range (sects.length + copies)) ok).isEmpty = true then some ok
  else none

/-! ### Control images (R60, R256) -/

/-- The byte offset of the first illegal control word of some bytes. -/
def firstIllegal (o : Nat) : List Byte → Option Nat
  | a :: b :: c :: d :: t =>
    if (decodeControl (BitVec.ofNat 32 (leNat [a, b, c, d]))).isNone then some o else firstIllegal (o + 4) t
  | _ => none

/-- A control image entry. -/
structure CtlImage where
  core : Nat
  img : Nat
  size : Nat
  exec : BitVec 32
  pc : Word
  cdata : Word
  glist : Word
  gcnt : Word

/-- Read a control image entry and check its limits. -/
def State.ctlImage (s : State) (cores : BitVec 384) (a : Nat) : CtlImage × Bool :=
  let core := s.readWord a
  let i : CtlImage :=
    { core := core.toNat % 512, img := s.readNat (a + 8) 8, size := s.readNat (a + 16) 4, exec := BitVec.ofNat 32 (s.readNat (a + 20) 4),
      pc := s.readWord (a + 24), cdata := s.readWord (a + 32), glist := s.readWord (a + 40), gcnt := s.readWord (a + 48) }
  let execPage (b : Nat) : Bool := i.exec.getLsbD (b / 4096)
  let g := i.glist.toNat
  let n := 8 * i.gcnt.toNat
  (i, (core.extractLsb' 9 55).toNat == 0 && inMask cores i.core && i.img % 64 == 0 && assigned i.img i.size && i.size % 8 == 0
      && decide (8 ≤ i.size ∧ i.size ≤ sramSize) && i.pc.toNat % 4 == 0 && decide (i.pc.toNat < i.size) && execPage i.pc.toNat
      && (n == 0 || (decide (g + n ≤ sramSize) && (List.range 32).all fun p => !i.exec.getLsbD p || g + n ≤ 4096 * p || 4096 * (p + 1) ≤ g))
      && s.readNat (a + 56) 8 == 0)

/-- The first illegal word of the executable pages of an image; the bytes after it are 0, which is legal (R59, R256). -/
def State.imageIllegal (s : State) (i : CtlImage) : Option Nat :=
  (List.range 32).findSome? fun p =>
    if i.exec.getLsbD p ∧ 4096 * p < i.size then
      firstIllegal (4096 * p) (padTo ((min 4096 (i.size - 4096 * p) + 3) / 4 * 4) (s.read (i.img + 4096 * p) (min 4096 (i.size - 4096 * p))))
    else none

/-- The control core that an image starts (R85, R256). -/
def CtlImage.start (i : CtlImage) (ctx : Nat) (tvec : Word) : Ctl :=
  let c : Ctl := { Ctl.reset i.core with owner := some ctx, run := .running, pc := i.pc, tvec := wordAligned tvec, exec := i.exec }
  (((c.setReg 2 0x20000).setReg 3 i.cdata).setReg 4 i.glist).setReg 5 i.gcnt

/-! ### Creation -/

/-- Install the objects of a record, each as an accepted ORSET would (R238, R255): none when one is rejected. -/
def State.installObjs (s : State) (ctx : Nat) (groups : List (Nat × BitVec 384)) : List (Word × BitVec 1024) → Option State
  | [] => some s
  | (hw, w) :: t =>
    let n := ObjRec.ofBits w
    let n := { n with ctx := if n.ctx = 255 then 255 else ctx }
    let h := hw.toNat
    let p := s.projected h
    if (s.handleReject hw).isSome ∨ (hw.extractLsb' 24 40).toNat ≠ 0 then none
    else if (recordFaults s.devId w ++ barrierFaults ctx groups n) ≠ [] then none
    else if p.st ≠ 0 ∧ ((p.st ≠ 1 ∧ p.st ≠ 2) ∨ p.updates n = false) then none
    else (s.performSet h n).installObjs ctx groups t

/-- The object entries of a record. -/
def State.objEntries (s : State) (r : LaunchRec) : List (Word × BitVec 1024) :=
  (listAddrs r.objs 136).map fun a => (s.readWord a, BitVec.ofNat 1024 (s.readNat (a + 8) 128))

/-- What the checks of a record come to: a rejection with its RDET, or the parts of the context with the objects installed. -/
inductive Checked where
  | reject (rdet : Nat)
  | ok (s : State) (groups : List (Nat × BitVec 384)) (sects : List Section) (copies : List Copy) (edges : List (Nat × Nat))
      (images : List CtlImage)

/-- Check a launch record for a context id (R159, R170, R255 to R259, R278). -/
def State.checkLaunch (s : State) (q : LaunchReq) (r : LaunchRec) (id : Nat) : Checked :=
  let bad : Checked := .reject 0xFFFFFFFF
  if r.fieldsOk = false ∨ (q.parent.isSome = true ∧ subMask r.cores q.partMask = false) then bad
  else
    let gs := s.groupEntries r
    let sects := (listAddrs r.sects 96).map (s.sectionEntry r.cores)
    let copies := (listAddrs r.sched 64).map fun a => Copy.fresh (BitVec.ofNat 512 (s.readNat a 64))
    let images := (listAddrs r.ctls 64).map (s.ctlImage r.cores)
    let ids := sects.map fun t => t.1.id
    let owners := images.map fun i => i.1.core
    if groupsOk r.cores gs = false ∨ (sects.all (·.2)) = false ∨ ids.eraseDups.length ≠ ids.length ∨ copiesOk r.cores copies = false
        ∨ (images.all (·.2)) = false ∨ owners.eraseDups.length ≠ owners.length then bad
    else match s.edgeList r (sects.map (·.1)) copies.length with
      | none => bad
      | some es => match s.installObjs id (validGroups gs) (s.objEntries r) with
        | none => bad
        | some t => match (images.map (·.1)).findSome? s.imageIllegal with
          | some o => .reject o
          | none => .ok t (validGroups gs) (sects.map (·.1)) copies es (images.map (·.1))

/-- The part of a fresh context on one core (R119, R159, R261). -/
def CoreCtx.fresh (core ctx ebud : Nat) : CoreCtx :=
  { core := core, ctx := ctx, fpmode := 0, fpflags := 0, raised := (0, 0), ebudget := ebud, shortfall := 0, rstg := 0, pool := [], sects := [],
    eosSeen := [], accs := List.replicate 4 AccSet.reset, areaAsked := false, area := none, everInM := false, i2seq := 0, order := 0,
    stops := [], cont := none, part := none }

/-- Nodes with their predecessor counts (R260). -/
def freshNodes (sections copies : Nat) (es : List (Nat × Nat)) : List Node :=
  (List.range (sections + copies)).map fun k =>
    { copy := decide (sections ≤ k), idx := if k < sections then k else k - sections,
      preds := (es.filter fun e => e.2 == k).length, st := .waiting }

/-- Bytes of a save object (R291). -/
def saveObjectBytes : Nat := 2621440

/-- The runs of this device's memory that an object's data take: its residency map and present blocks, or its data and its shadow's (R203,
R205, R210). -/
def State.objRuns (s : State) (r : ObjRec) : List (Nat × Nat) :=
  if r.st = 0 ∨ r.owner ≠ s.devId then []
  else if r.st = 2 then
    let es := ((List.range r.blocks).map fun b => s.readWord (r.base + 8 * b)).filter entryPresent
    (r.base, 8 * r.blocks) :: es.map fun e => ((e.extractLsb' 0 48).toNat, r.blockLen)
  else (r.base, r.footprint) :: if r.shadow = 0 then [] else [(r.shadow, r.footprint)]

/-- Whether n bytes from a are free for the firmware and management to place something in: no object's data, save object, relocation's
destination or byte of the object table is there (log 25). -/
def State.freeRun (s : State) (a n : Nat) : Bool :=
  let clear (q : Nat × Nat) : Bool := !overlap a n q.1 q.2
  (s.msys.objs.all fun q => (s.objRuns q.2).all clear)
    && (s.ctxs.all fun x => x.saveBase.all fun q => clear (q.2, saveObjectBytes))
    && (s.msys.relocs.all fun m => clear (m.newBase, ((s.obj? m.handle).getD ObjRec.reset).footprint))
    && clear (s.msys.table, 128 * s.msys.objCount)

/-- A free run of HBM for a save object (R291; log 25). -/
def State.saveRoom (s : State) (used : List Nat) : Option Nat :=
  ((List.range 4096).map fun i => 64000000000 - saveObjectBytes * (i + 1)).find? fun a =>
    !used.contains a && s.freeRun a saveObjectBytes

/-- A save object for each of some cores. -/
def State.saveObjects (s : State) : List Nat → List (Nat × Nat) → Option (List (Nat × Nat))
  | [], acc => some acc
  | c :: t, acc => match s.saveRoom (acc.map (·.2)) with
    | some a => s.saveObjects t ((c, a) :: acc)
    | none => none

/-- Build the context of a checked record. -/
def State.buildContext (s : State) (q : LaunchReq) (r : LaunchRec) (id : Nat) (groups : List (Nat × BitVec 384)) (sects : List Section)
    (copies : List Copy) (es : List (Nat × Nat)) (images : List CtlImage) (saves : List (Nat × Nat)) : State :=
  let x : Ctx :=
    { id := id, prio := min ((r.creq.extractLsb' 6 2).toNat) q.cap, cols := (r.creq.extractLsb' 0 6).toNat,
      tagfmt := r.creq.extractLsb' 8 24, ceiling := r.ebud.toNat, erate := r.erat.toNat, agewin := 4096, dlwin := 2^20,
      part := r.cores, owned := images.foldl (fun m i => m ||| BitVec.twoPow 384 i.core) 0, groups := groups, excl := r.excl,
      sects := sects, copies := copies, edges := es, nodes := freshNodes sects.length copies.length es, lid := r.lid, crec := r.crec,
      csig := r.csig, tvec := r.tvec, tstart := s.ck, tend := s.ck, faults := 0, orph := 0, fkind := 0, fsect := 0, fck := 0, rdet := [],
      sealed := false, empty := false, aband := false, phase := .resident, causes := [], pendSeals := [], dolz := false, watch := Watch.reset, stall := [],
      saveBase := saves, queue := q.queue }
  let s := { s with
    flow := { s.flow with foreign := s.flow.foreign.filter fun g => g.1 != id }
    ctxs := s.ctxs ++ [x]
    cores := s.cores ++ (maskCores r.cores).map fun c => CoreCtx.fresh c id r.ebud.toNat }
  let s := images.foldl (fun s i => (s.write (coreKey i.core 0) (padTo sramSize (s.read i.img i.size))).setCtl (i.start id r.tvec)) s
  s.modHost fun h => { h with
    streams := modify (fun t => t.byLid == some (r.lid.toNat % 2^32)) (fun t => { t with ctx := id, byLid := none }) h.streams }

/-- The completion record of a rejected launch (R256, R267, R278). -/
def rejectRecord (lid : Word) (rdet : Nat) : BitVec 512 :=
  BitVec.ofNat 512 (3 + 2^64 + rdet % 2^32 * 2^320 + lid.toNat * 2^352 + 19 * 2^424)

/-- Reject a launch (R278, R356, R358): with a usable CREC the record and the signal, else a user queue's LREJ with code 4. -/
def State.rejectLaunch (s : State) (q : LaunchReq) (r : LaunchRec) (rdet : Nat) : State :=
  let s := s.modHost fun h => { h with streams := h.streams.filter fun t => t.byLid != some (r.lid.toNat % 2^32) }
  if r.crec % 64 = 0 ∧ assigned r.crec 64 = true then
    ((s.write r.crec (leBytes 64 (rejectRecord r.lid rdet).toNat)).postCounter (.launch r.lid) r.csig).completeEntry q.queue
  else match q.queue with
    | some (k, seq) => (s.modQueue k fun u => { u with lrej := BitVec.ofNat 32 seq, rjwhy := 4 }).completeEntry (some (k, seq))
    | none => s

/-- The n-th launch that waits for the firmware scheduler: those of user queues, then those of contexts, each served in its
queue's order (R278). -/
def State.launchAt (s : State) (n : Nat) : Option LaunchReq :=
  let k := s.host.launches.length
  if n < k then s.host.launches[n]?
  else match s.host.ctxLaunches[n - k]? with
    | some q => if (s.host.ctxLaunches.take (n - k)).any fun p => p.1 == q.1 && p.2.ended == q.2.ended then none else some q.2
    | none => none

/-- The n-th launch is taken from its queue. -/
def State.dropLaunch (s : State) (n : Nat) : State :=
  s.modHost fun h =>
    if n < h.launches.length then { h with launches := h.launches.eraseIdx n }
    else { h with ctxLaunches := h.ctxLaunches.eraseIdx (n - h.launches.length) }

/-- Whether an id is free for a context (R159, R255): no context has it, and no valid object record. -/
def State.idFree (s : State) (id : Nat) : Bool :=
  decide (id < 255) && (s.ctx? id).isNone && s.msys.objs.all fun q => q.2.st == 0 || q.2.ctx != id

/-- Whether a checked launch can be placed now (R159, R160): its control cores are free, every core holds fewer than eight resident
contexts, and no command waits for a handle it installs. -/
def State.placeLaunch (s : State) (r : LaunchRec) (images : List CtlImage) : Bool :=
  (images.all fun i => (s.ctl i.core).owner.isNone)
    && ((maskCores r.cores).all fun c => decide ((s.cores.filter fun y => y.core == c && !y.saved).length < 8))
    && (s.objEntries r).all fun e => !s.hubBusy e.1.toNat

/-- The firmware scheduler pre-empts the running contexts of lower priority that hold a control core which a launch needs (R160): each
gets the cause once. -/
def State.preemptHolders (s : State) (r : LaunchRec) (q : LaunchReq) (images : List CtlImage) : State :=
  let prio := min ((r.creq.extractLsb' 6 2).toNat) q.cap
  let holders := (images.filterMap fun i => (s.ctl i.core).owner).eraseDups
  (holders.filter fun id => (s.ctx? id).any fun x => decide (x.prio < prio)).foldl State.preempt s

/-- CONTEXT_CREATE (R159, R160, R173, R255, R278): the n-th waiting launch becomes context `id`, is rejected, or waits for the control
cores that it needs. -/
def execContextCreate (n : Nat) (id : Nat) (s : State) : Host.Outcome State Fault Refusal :=
  match s.launchAt n with
  | none => finish s s
  | some q =>
    if s.idFree id = false ∨ s.serves .contexts = false then finish s s
    else
      let r := s.launchRec q.places
      match s.checkLaunch q r id with
      | .reject rdet => finish s ((s.dropLaunch n).rejectLaunch q r rdet)
      | .ok t gs sects copies es images =>
        match s.saveObjects (maskCores r.cores) [] with
        | some saves =>
          if s.placeLaunch r images then finish s ((t.dropLaunch n).buildContext q r id gs sects copies es images saves)
          else finish s (s.preemptHolders r q images)
        | none => finish s s

/-! ### The dependence walk (R260) -/

/-- Change a node. -/
def Ctx.modNode (x : Ctx) (k : Nat) (f : Node → Node) : Ctx := { x with nodes := x.nodes.modify k f }

/-- A block in device memory. -/
def State.deviceBlock (s : State) (a : Nat) : Block := readBlock fun o n => s.read (a + o) n

/-- Whether a listed block can be read where it lies. -/
def State.blockReadable (s : State) (a : Nat) : Bool := a % 32 == 0 && assigned a 8 && assigned a (blockSize (s.readWord a))

/-- Load the blocks of a section in list order with GLOAD's checks: the machine, and the index and status of a rejection. -/
def State.loadBlocks (s : State) (ctx i : Nat) : List (Nat × Nat) → State × Option (Nat × Nat)
  | [] => (s, none)
  | (core, a) :: t =>
    if s.blockReadable a = false then (s, some (i, 4096))
    else
      let b := s.deviceBlock a
      match s.blockReject core ctx b with
      | some (r, j) => (s, some (i, r * 4096 + j % 1024))
      | none =>
        let old := if b.sw then s.switched core ctx b else []
        (if old.isEmpty then s.writeBlock core ctx b else s.switchIn core ctx b old).loadBlocks ctx (i + 1) t

/-- Whether a block of a section switches slots that are still at work (R303). -/
def State.switchWaits (s : State) (ctx : Nat) (bs : List (Nat × Nat)) : Bool :=
  bs.any fun q =>
    let b := s.deviceBlock q.2
    b.sw && s.inProgress q.1 ctx (s.switched q.1 ctx b)

/-- The token of a section's list: a tile's allocation lies at its destination, and gains a reference (R13, R111). -/
def State.injectStart (s : State) (t : Token) : State :=
  let s := match t.alloc? with
    | some i => s.addRefs t.core i 1
    | none => s
  s.launchTok { srcCore := t.core, srcEng := .c, tok := t, body := none, fromDev := none, toDev := none, strm := 0 }

/-- Inject the tokens of a section in list order with INJ's checks: the machine, and the index and reason of a rejection. -/
def State.injectAll (s : State) (ctx i : Nat) : List Nat → State × Option (Nat × Nat)
  | [] => (s, none)
  | a :: t =>
    let h0 := s.readWord a
    let h1 := s.readWord (a + 8)
    let w0 := s.readWord (a + 16)
    let w1 := s.readWord (a + 24)
    let tok := Token.ofWords h0 h1 w0 w1
    match s.injReject ctx tok.core false h0 h1 w0 w1 with
    | some r => (s, some (i, r))
    | none => (s.injectStart { tok with ctx := ctx }).injectAll ctx (i + 1) t

/-- The start of a section failed (R260, R267, R307): its node ends, fails, what RDET says of it is kept, and it is sealed. -/
def State.failStart (s : State) (ctx k sect rdet : Nat) : State :=
  (s.modCtx ctx fun x => { x.modNode k (fun n => { n with st := .failed }) with
    rdet := x.rdet ++ [(sect, rdet)], tend := s.ck }).raise ctx sect 21

/-- Start a section (R260 rule 3). -/
def State.startSection (s : State) (ctx k : Nat) (t : Section) : State :=
  let s := s.modCtx ctx fun x => x.modNode k fun n => { n with st := .started }
  if t.blocks.isEmpty then s
  else match s.loadBlocks ctx 0 t.blocks with
    | (s, some (i, st)) => s.failStart ctx k t.id (i % 2^15 * 2^16 + st)
    | (s, none) => match s.injectAll ctx 0 ((List.range t.toks.2).map fun j => t.toks.1 + 32 * j) with
      | (s, some (i, r)) => s.failStart ctx k t.id (2^31 + i % 2^15 * 2^16 + r)
      | (s, none) => s

/-- NODE_START (R260 rules 2 to 4): the first node in table order whose count is 0. -/
def execNodeStart (ctx : Nat) (node : Nat) (s : State) : Host.Outcome State Fault Refusal :=
  match s.ctx? ctx with
  | none => finish s s
  | some x =>
    let ready (n : Node) : Bool := n.st == .waiting && n.preds == 0
    match x.nodes[node]? with
    | none => finish s s
    | some n =>
      if ready n = false ∨ (x.nodes.take node).any ready = true ∨ s.runs ctx = false then finish s s
      else if n.copy then
        finish s (s.modCtx ctx fun x => { x.modNode node (fun n => { n with st := .started }) with
          copies := x.copies.modify n.idx fun c => { c with eligible := true } })
      else match x.sects[n.idx]? with
        | some t =>
          if t.sealed ∨ s.switchWaits ctx t.blocks = true then finish s s else finish s (s.startSection ctx node t)
        | none => finish s s

/-- Whether a node has ended without its successors' leave to start. -/
def NodeEnd.bad : NodeEnd → Bool
  | .sealed | .failed | .abandoned => true
  | _ => false

/-- The end that a node has reached and has not reported (R260 rule 5). A copy's node is no node of the section that its SECT names: it ends as
the copy does (log 88). -/
def Ctx.nodeOutcome (x : Ctx) (k : Nat) (n : Node) : Option NodeEnd :=
  let waitsBehind := x.edges.any fun e => e.1 == k && (x.nodes[e.2]?.map fun m => m.st == .waiting).getD false
  let after := x.edges.any fun e => e.2 == k && (x.nodes[e.1]?.map fun m => m.st.bad).getD false
  let sealed := !n.copy && (x.sects[n.idx]?.map fun t => t.sealed).getD false
  match n.st with
  | .waiting => if sealed then some .sealed else if after then some .abandoned else none
  | .started =>
    if n.copy then (if (x.copies[n.idx]?.map fun c => c.ended).getD false then some .finished else none)
    else if (x.sects[n.idx]?.map fun t => t.finished).getD false then some .finished
    else if sealed then some .sealed else none
  | .finished => none
  | e => if waitsBehind then some e else none

/-- NODE_END (R260 rule 5). -/
def execNodeEnd (ctx : Nat) (node : Nat) (s : State) : Host.Outcome State Fault Refusal :=
  match s.ctx? ctx with
  | none => finish s s
  | some x =>
    match (x.nodes[node]?).bind (x.nodeOutcome node) with
    | none => finish s s
    | some e =>
      let edgesTo (j : Nat) : Nat := (x.edges.filter fun q => q.1 == node && q.2 == j).length
      let next := x.nodes.zipIdx.map fun q =>
        if q.2 = node then { q.1 with st := e }
        else if edgesTo q.2 = 0 then q.1
        else if e = .finished then { q.1 with preds := q.1.preds - edgesTo q.2 }
        else if q.1.st = .waiting then { q.1 with st := .abandoned } else q.1
      finish s (s.modCtx ctx fun x => { x with
        nodes := next
        aband := x.aband || next.any fun n => n.st == .abandoned
        tend := s.ck })

/-- LAUNCH_COMPLETE (R260, R267): every node has ended. -/
def execLaunchComplete (ctx : Nat) (s : State) : Host.Outcome State Fault Refusal :=
  match s.ctx? ctx with
  | none => finish s s
  | some x =>
    let open_ (q : Node × Nat) : Bool := q.1.st == .waiting || q.1.st == .started || (x.nodeOutcome q.2 q.1).isSome
    if s.serves .contexts = false ∨ x.nodes.zipIdx.any open_ ∨ s.runs ctx = false ∨ (s.flow.seals.any fun q => q.1 == ctx) = true then finish s s
    else finish s (s.endLaunch x false)

/-! ### The copy replayer (R252, R261 to R263) -/

/-- Change a copy entry. -/
def State.modCopy (s : State) (ctx k : Nat) (f : Copy → Copy) : State :=
  s.modCtx ctx fun x => { x with copies := x.copies.modify k f }

/-- The access of one side of a copy (R258, R262); it rounds in the mode of its object, under FORCE too (log 89). -/
def Copy.side (c : Copy) (h : Nat) (r : ObjRec) (x1 x2 hi : Nat) : Access :=
  { handle := h, obj := r,
    x := [c.field x1 32, c.field x2 32, c.field hi 16, c.field (hi + 16) 16, c.field (hi + 32) 16, c.field (hi + 48) 16],
    rows := plainRows c.rows, cols := c.cols, pad := c.field 25 1 == 0, mode := r.rm, lit1 := 0, desc := 0, desc1 := 0 }

/-- The source side. -/
def Copy.source (c : Copy) (r : ObjRec) : Access := c.side (c.field 64 24) r 128 160 192

/-- The destination side. -/
def Copy.target (c : Copy) (r : ObjRec) : Access := c.side (c.field 256 24) r 320 352 384

/-- The fault kind of a copy's two sides (R129, R130, R132), if any. -/
def Copy.fault (c : Copy) (a b : Access) : Option Nat :=
  let g := b.obj.group
  let x1 := dim b.x 1
  if (a.obj.rank = 1 ∨ b.obj.rank = 1) ∧ c.rows ≠ 1 then some 1
  else if x1 % g ≠ 0 ∨ c.cols % g ≠ 0 ∨ (b.obj.had = true ∧ (x1 % 32 ≠ 0 ∨ c.cols % 32 ≠ 0)) then some 1
  else if a.pad = false ∧ (a.someOut = true ∨ b.someOut = true) then some 4
  else none

/-- A recoverable fault of a copy entry (R206, R262); of one whose section seals it is dropped, and halts nothing (R300). -/
def State.copyHalt (s : State) (ctx k core kind h gen block : Nat) (order : Option Nat) : State :=
  let sect := (((s.ctx? ctx).bind fun x => x.copies[k]?).map fun c => c.field 26 8).getD 0
  if s.sealing ctx sect then s.failCopy ctx k 3
  else s.addCause ctx { kind := kind, core := core, e := 4, slot := k, handle := h, gen := gen, block := block, order := order }

/-- A stand-in for a copy entry when it enters the Chest (R286), and while an access of it to another device's object is outstanding
(R262, R339). -/
def copyFiring (id core ctx sect : Nat) : Firing := { edgeFiring core ctx .c sect with id := id }

/-- Enter a Chest entry for a copy, its index as the argument. -/
def State.enterCopy (s : State) (core ctx sect k cls kind h gen rows : Nat) : State × Nat :=
  { s with nextId := s.nextId + 1 }.enterChest (copyFiring s.nextId core ctx sect)
    { cls := cls, kind := kind, handle := h, gen := gen, rows := rows, arg := BitVec.ofNat 64 k } 0

/-- The elements that other devices have answered for a copy's Chest entry (R206). -/
def State.gotOf (s : State) (core ctx order : Nat) : List Got := ((s.chest? core ctx order).map (·.got)).getD []

/-- Send a copy's access of a Chest order to the device that owns the object (R262, R339): a stand-in firing holds it beside its Bench
entry. -/
def State.sendCopy (s : State) (core ctx sect order : Nat) (j : Job) : State :=
  let f := { copyFiring s.nextId core ctx sect with order := some order, job := j }
  let s := (s.modChest core ctx order fun e => { e with fid := f.id }).modFlow fun w => { w with firings := w.firings ++ [f] }
  { s with nextId := s.nextId + 1 }.enterBench f

/-- Whether a copy entry is eligible and released, and not begun (R261). -/
def Copy.due (c : Copy) (y : CoreCtx) : Bool := c.eligible && !c.running && !c.ended && decide (c.field 0 16 < y.rstg)

/-- Whether a core's Chest has room for n entries (R286). -/
def State.chestRoomFor (s : State) (core n : Nat) : Bool := decide ((s.msys.chest.filter fun e => e.core == core).length + n ≤ 128)

/-- Start a copy (R252, R262): both sides are translated once, and its rows are debited. -/
def State.startCopy (s : State) (ctx k : Nat) (c : Copy) : State :=
  let core := c.core
  let sect := c.field 26 8
  match s.translate ctx (c.field 64 24) 0 0, s.translate ctx (c.field 256 24) 0 1 with
  | .fault f, _ => s.failCopy ctx k f
  | .halt f g, _ => s.copyHalt ctx k core f (c.field 64 24) g 0 none
  | _, .fault f => s.failCopy ctx k f
  | _, .halt f g => s.copyHalt ctx k core f (c.field 256 24) g 0 none
  | .ok rs, .ok rd =>
    let a := c.source rs
    let b := c.target rd
    match c.fault a b with
    | some f => s.failCopy ctx k f
    | none =>
      let s := s.modCctx core ctx fun y => y.debit c.rows
      let (s, so) := s.enterCopy core ctx sect k 0 16 a.handle rs.gen c.rows
      let (s, d) := s.enterCopy core ctx sect k 1 17 b.handle rd.gen c.rows
      let s := s.modCopy ctx k fun c => { c with
        running := true, src := some a, dst := some b, srcOrder := so, dstOrder := d, got := if a.allOut then some [] else none, sent := [] }
      if a.obj.owner = s.devId ∨ a.allOut = true then s else s.sendCopy core ctx sect so (.load a)

/-- The in-shape cells of an access before its row i. -/
def Access.cellsBefore (t : Access) (i : Nat) : Nat :=
  ((t.cells.filter fun c => decide (c.1 < (i : Int))).filter fun c => (t.cell c.1 c.2).isSome).length

/-- One row of the source (R262): its elements, from the data that its other device has sent (R339), or from memory; whether one is poison;
the flag NV; or the absent block. -/
def copyRow (s : State) (ctx : Nat) (c : Copy) (a : Access) (i : Nat) : Except Nat LoadAcc :=
  let t := { a with rows := [(i : Int)] }
  match c.got with
  | some bs =>
    let n := (t.cells.filter fun q => (t.cell q.1 q.2).isSome).length
    let es := placeElems t t.cells (answerElems t.obj n (bs.drop (a.cellsBefore i * t.obj.wireSize)))
    .ok { out := es.reverse, nv := es.any (·.nv) }
  | none => s.loadCells t (s.gotOf c.core ctx c.srcOrder) t.cells {}

/-- Write one row at the destination (R132, R262): to memory, or into the data for the other device that owns it (R339). -/
def State.copyStore (s : State) (ctx : Nat) (c : Copy) (b : Access) (i : Nat) (fmt : Nat) (es : List Loaded) :
    State × List Byte × Flags × Option Nat :=
  let t := { b with rows := [(i : Int)] }
  let tl := loadedTile fmt 1 b.cols es
  let cs := tileCells t tl
  if b.obj.owner = s.devId then
    match s.storeTile t tl (s.gotOf c.core ctx c.dstOrder) 0 b.cols with
    | (u, fl, blk) => (u, [], fl, blk)
  else
    let (bs, fl) := encodeCells t none (cs.map (·.1))
    (s, bs, fl.or (unionFlags (cs.map (·.2))), none)

/-- An entry faults for an absent block (R206, R289). -/
def State.copyAbsent (s : State) (ctx k core h gen block order : Nat) : State :=
  (s.modChest core ctx order fun e => { e with st := 3 }).copyHalt ctx k core 32 h gen block (some order)

/-- The next row of a side of a copy of whose object a block is at another device: that device is asked first (R206). -/
def State.copyAsk (s : State) (ctx order : Nat) (c : Copy) (t : Access) (q : PartAsk) : Option State :=
  let row := { t with rows := [(c.rowsDone : Int)] }
  (s.chest? c.core ctx order).bind fun e => (s.firstAway e row (q.op == .write) row.cells).map fun w => s.askPart e row w.2.1 w.2.2 q

/-- Move the next row of a copy (R252, R262). -/
def State.moveRow (s : State) (ctx k : Nat) (c : Copy) (a b : Access) : State :=
  let core := c.core
  let i := c.rowsDone
  match s.copyAsk ctx c.srcOrder c a { op := .read } with
  | some u => u
  | none => match copyRow s ctx c a i with
  | .error blk => s.copyAbsent ctx k core a.handle a.obj.gen blk c.srcOrder
  | .ok acc =>
    if acc.ecc then s.failCopy ctx k 5
    else
      let out := tileCells { b with rows := [(i : Int)] } (loadedTile a.obj.fmt 1 b.cols acc.out.reverse)
      match s.copyAsk ctx c.dstOrder c b { op := .write, cells := out.map (·.1) } with
      | some u => u
      | none => match s.copyStore ctx c b i a.obj.fmt acc.out.reverse with
      | (s, bs, fl, blk) =>
        let s := s.setFlags core ctx .s (if acc.nv then fl.or flagNV else fl)
        match blk with
        | some blk => s.copyAbsent ctx k core b.handle b.obj.gen blk c.dstOrder
        | none =>
          let last := decide (c.rows ≤ i + 1)
          let away := decide (b.obj.owner ≠ s.devId ∧ b.allOut = false)
          let s := s.modCopy ctx k fun c => { c with rowsDone := i + 1, sent := c.sent ++ bs, written := last && !away }
          let s := s.modMsys fun m => { m with rows := upsert (fun q => q.1 == core) (core, s.ck) m.rows }
          let s := if last && away then s.sendCopy core ctx (c.field 26 8) c.dstOrder (.snapshot b (c.sent ++ bs)) else s
          let s := s.modChest core ctx c.dstOrder fun e => { e with row := i + 1 }
          if last then s.retireChest core ctx c.srcOrder else s.modChest core ctx c.srcOrder fun e => { e with row := i + 1 }

/-- Whether a core's replayer has moved a row in this ck (R252). -/
def State.rowMoved (s : State) (core : Nat) : Bool := s.msys.rows.any fun q => q.1 == core && q.2 == s.ck

/-- Whether the next row of a copy must wait: for the data of its source's device, and at its last row for a Bench entry to send its
writes with (R339). -/
def State.rowWaits (s : State) (c : Copy) (a b : Access) : Bool :=
  (a.obj.owner != s.devId && c.got.isNone)
    || (b.obj.owner != s.devId && decide (c.rows ≤ c.rowsDone + 1) && (freeBench (s.benchOf c.core)).isNone)

/-- Whether a copy that would start finds no Bench entry for a source at another device (R339 step 5). -/
def State.benchLacks (s : State) (ctx : Nat) (c : Copy) : Bool :=
  (freeBench (s.benchOf c.core)).isNone && match s.translate ctx (c.field 64 24) 0 0 with
    | .ok r => r.owner != s.devId
    | _ => false

/-- Whether an entry of a copy waits for service (R289). -/
def State.copyFaulted (s : State) (core ctx : Nat) (c : Copy) : Bool :=
  [c.srcOrder, c.dstOrder].any fun o => ((s.chest? core ctx o).map fun e => e.eng == 3 && e.st == 3).getD false

/-- COPY_ENTRY_RUN (R252, R262): entry k of a context's schedule starts, or moves its next row, one on a core in a ck and none while the
Chest is full; entries of a core that are due start in schedule order. -/
def execCopyEntryRun (ctx : Nat) (k : Nat) (s : State) : Host.Outcome State Fault Refusal :=
  match s.ctx? ctx with
  | none => finish s s
  | some x =>
    match x.copies[k]? with
    | none => finish s s
    | some c =>
      match s.cctx? c.core ctx with
      | none => finish s s
      | some y =>
        if s.runs ctx = false then finish s s
        else if c.running then
          match c.src, c.dst with
          | some a, some b =>
            if c.ended ∨ c.written ∨ c.rows ≤ c.rowsDone ∨ s.chestRoomFor c.core 1 = false ∨ s.rowMoved c.core = true ∨ s.rowWaits c a b = true
                ∨ s.copyFaulted c.core ctx c = true then finish s s else finish s (s.moveRow ctx k c a b)
          | _, _ => finish s s
        else if c.due y = false ∨ ((x.copies.take k).any fun d => d.core == c.core && d.due y) = true ∨ 8 ≤ s.copiesRunning c.core
            ∨ s.chestRoomFor c.core 2 = false ∨ y.ebudget = 0 ∨ s.benchLacks ctx c = true then finish s s
        else finish s (s.startCopy ctx k c)

/-- Issue a copy's counter add (R254, R262). -/
def State.issueCopyAdd (s : State) (ctx k : Nat) (c : Copy) : State :=
  let h := c.field 448 24
  match s.translate ctx h 3 2 with
  | .fault f => s.failCopy ctx k f
  | .halt f g => s.copyHalt ctx k c.core f h g 0 none
  | .ok r =>
    if dim r.shape 1 * dim r.shape 2 ≤ c.field 472 24 then s.failCopy ctx k 1
    else
      let (s, o) := s.enterCopy c.core ctx (c.field 26 8) k 2 18 h r.gen 0
      s.modCopy ctx k fun c => { c with posting := true, srcOrder := o }

/-- COPY_COUNTER_POST (R262): once every write is acknowledged the counter add is issued; once it has been performed, or without a
counter, the copy has ended. -/
def execCopyCounterPost (ctx : Nat) (k : Nat) (s : State) : Host.Outcome State Fault Refusal :=
  match (s.ctx? ctx).bind fun x => x.copies[k]? with
  | none => finish s s
  | some c =>
    let core := c.core
    let done (s : State) : State := s.modCopy ctx k fun c => { c with ended := true }
    if c.running = false ∨ c.ended = true ∨ c.written = false ∨ s.runs ctx = false then finish s s
    else if c.posting then
      match s.chest? core ctx c.srcOrder with
      | some e => if e.done then finish s (done (s.retireChest core ctx c.srcOrder)) else finish s s
      | none => finish s (done s)
    else
      match s.chest? core ctx c.dstOrder with
      | some e =>
        if e.kind = 17 ∧ e.st ≠ 2 then finish s s
        else
          let t := if e.kind = 17 then s.retireChest core ctx c.dstOrder else s
          if c.field 448 24 = 0 then finish s (done t)
          else if t.chestRoomFor core 1 then finish s (t.issueCopyAdd ctx k c) else finish s s
      | none =>
        if c.field 448 24 = 0 then finish s (done s)
        else if s.chestRoomFor core 1 then finish s (s.issueCopyAdd ctx k c) else finish s s

end Sys2Proof.Machine
end

