-- ==== Sys2Proof/Machine/Remote.lean ====
section
/-! DEFINITION. Remote access: the owner's side (R340 to R342, R348, R353) and the notices and answers that reach the requester's
Bench (R344, R345). -/

namespace Sys2Proof.Machine

/-! ### At the owner -/

/-- The hub of a memory (R323, R340). -/
def hubOf : Bank → Nat
  | .hbm s => s / 4
  | .hub h => h
  | .die d => d % 2
  | .cluster k => k / 4 % 2
  | .quad q => q / 16 % 2

/-- The home hub of an object (R340). -/
def ObjRec.homeHub (r : ObjRec) : Nat := ((bankOf r.base).map hubOf).getD 0

/-- The access that a request names on the owner's record; an atomic rounds in the mode that the firing took at issue (R39, R245; log 62). -/
def reqAccess (q : RemoteReq) (r : ObjRec) : Access :=
  { handle := q.handle, obj := r, x := q.x, rows := q.rows.map fun (i : Nat) => (i : Int) - (dim q.x 2 : Int), cols := q.cols, pad := true,
    mode := q.mode, lit1 := 0, desc := 0, desc1 := 0 }

/-- The permission bit that a request needs. -/
def reqNeed (q : RemoteReq) : Nat :=
  match q.op with
  | .read => 0
  | .write => 1
  | .invoke _ => 2

/-- The owner's record for a request, if the first check of R340 passes, with R207's check of a replay. -/
def State.ownerRecord (s : State) (q : RemoteReq) : Option ObjRec :=
  if q.handle = 0 ∨ s.msys.objCount ≤ q.handle then none
  else match s.obj? q.handle with
    | none => none
    | some r =>
      if r.st = 0 ∨ r.owner ≠ s.devId ∨ r.kind ≠ 0 ∨ r.perm.getLsbD 3 = false ∨ r.perm.getLsbD (reqNeed q) = false ∨ r.fmt ≠ q.fmt
          ∨ (reqAccess q r).someOut = true then none
      else match q.replayOf with
        | some (_, _, g) => s.retranslate q.handle g
        | none => some r

/-- The blocks of an access that are not present here (R205, R340). -/
def State.missing (s : State) (t : Access) (store : Bool) : List Nat :=
  (t.cells.filterMap fun c => t.cell c.1 c.2).filterMap fun x => match s.site t.obj store x with
    | .at _ => none
    | .absent b => some b
    | .remote b _ => some b

/-- Whether a ticket entry is for a request's key, blocks aside (R341). -/
def Ticket.isFor (t : Ticket) (q : RemoteReq) : Bool := t.dev == q.dev && t.core == q.core && t.ctx == q.ctx && t.handle == q.handle

/-- Answer a request to its device. -/
def State.answerTo (s : State) (q : RemoteReq) (a : Answer) : State := s.hubPacket q.dev 1 q.ctx (.answer q.core q.order a)

/-- The elements of an access as a packet carries them, in order (R203, R339), and whether one has an uncorrectable ECC error. -/
def State.readWire (s : State) (t : Access) : List Byte × Bool :=
  let xs := t.coords.map fun x => match s.site t.obj false x with
    | .at ps => (t.obj.toWire (ps.map (s.readPiece t.handle t.obj.gen)), ps.any (s.pieceEcc t.handle t.obj.gen))
    | _ => ([], false)
  (xs.flatMap (·.1), xs.any (·.2))

/-- Write a packet's elements into the cells of an access, in order (R203, R339). -/
def State.writeWire (s : State) (t : Access) (data : List Byte) : State :=
  (t.coords.zip (t.obj.wireElems t.coords.length data)).foldl (fun s q => match s.site t.obj true q.1 with
    | .at ps => s.writePieces t.handle t.obj ps (t.obj.ofWire q.2)
    | _ => s) s

/-- A packet of an answer that carries poison (R301, R331). -/
def State.poisonLast (s : State) (p : Bool) : State :=
  if p then s.modFabric fun g => { g with packets := g.packets.modify (g.packets.length - 1) fun q => { q with poison := true } } else s

/-- Perform a request at the owner and answer it (R340, R346): none while the recent-tag table is full. An atomic or an invocation of a
shadowed object is rejected (R210). -/
def State.performRemote (s : State) (q : RemoteReq) (r : ObjRec) : Option State :=
  let t := reqAccess q r
  match q.op with
  | .read =>
    let (bs, p) := s.readWire t
    some ((s.answerTo q (.data bs)).poisonLast p)
  | .write => some ((s.writeWire t q.data).answerTo q .ack)
  | .invoke sub =>
    match s.invoked t with
    | some (.at ps) =>
      let a := (ps.headD (0, 0, 0)).1
      let bank := bankKey a
      if s.inHbm t = false ∨ r.st = 4 ∨ (5 ≤ sub ∧ sub < 16) ∨ 63 < sub then some (s.answerTo q .reject)
      else match s.msys.tags.find? fun e => e.dev == some q.dev && e.tag == q.dedup with
        | some e => some (s.answerTo q (.old e.result e.ok e.flags))
        | none =>
          if s.tagRoom bank = false then none
          else
            let (s, w, ok, fl, p) : State × Word × Bool × Flags × Bool :=
              if sub < 5 then s.atomic t sub q.v false q.w ps
              else if s.eccHit (s.readPlace t.handle t.obj.gen a / 512 * 512) 512 then (s, 0, false, noFlags, true)
              else
                let (s, w, _) := s.subgraph t sub q.v q.w a
                (s, w, true, noFlags, false)
            let s := s.modMsys fun m => { m with
              tags := m.tags ++ [{ bank := bank, dev := some q.dev, tag := q.dedup, result := w, ok := ok, flags := fl.bits }] }
            some ((s.answerTo q (.old w ok fl.bits)).poisonLast p)
    | _ => some (s.answerTo q .reject)

/-- The lowest free entry of a hub's ticket table (R341). -/
def State.freeTicket (s : State) (hub : Nat) : Option Nat :=
  (List.range 4096).find? fun i => !(s.msys.tickets.any fun t => t.hub == hub && t.idx == i)

/-- Ticket a request for a block (R341, R353): with the open entry of its key, or a new one, which is noticed to management; none while
the table is full. -/
def State.ticketRemote (s : State) (q : RemoteReq) (r : ObjRec) (block : Nat) : Option State :=
  match s.msys.tickets.find? fun t => t.isFor q && t.block == block with
  | some t => some (s.answerTo q (.ticket t.id block r.gen))
  | none => (s.freeTicket r.homeHub).map fun i =>
    let t : Ticket := { hub := r.homeHub, idx := i, dev := q.dev, core := q.core, ctx := q.ctx, handle := q.handle, block := block }
    ((s.modMsys fun m => { m with tickets := m.tickets ++ [t] }).record (.residency q.handle block)).answerTo q (.ticket t.id block r.gen)

/-- The first replayed request of a key, its block among it, closes its ticket entry (R341, R342). -/
def State.closeTicket (s : State) (q : RemoteReq) : State :=
  match q.replayOf with
  | some (id, block, _) => s.modMsys fun m => { m with tickets := m.tickets.filter fun t => !(t.isFor q && t.id == id && t.block == block) }
  | none => s

/-- A request of another device as its home hub takes it (R340 to R342): none while it must wait. -/
def State.takeRequest (s : State) (q : RemoteReq) : Option State :=
  if s.msys.absentPages.contains (q.handle / 32) then none
  else
    let s := s.closeTicket q
    match s.ownerRecord q with
    | none => some (s.answerTo q .reject)
    | some r =>
      let t := reqAccess q r
      let held := ((s.msys.tickets.filter fun e => e.isFor q && t.blocks.contains e.block).map (·.block))
      match (s.missing t (reqNeed q != 0) ++ held).min? with
      | some b => s.ticketRemote q r b
      | none => s.performRemote q r

/-- Whether a request waits at the hub for room in the ticket table (R341). -/
def State.ticketWaits (s : State) (q : RemoteReq) : Bool :=
  !s.msys.absentPages.contains (q.handle / 32) && match s.ownerRecord q with
    | some r => ((s.missing (reqAccess q r) (reqNeed q != 0)) != []) && (s.takeRequest q).isNone
    | none => false

/-- Whether a request may go before an earlier one of its flow that waits for room in the ticket table: to other blocks (R341, R342). -/
def State.passesTicket (s : State) (first q : RemoteReq) : Bool :=
  s.ticketWaits first && (first.handle != q.handle || match s.obj? q.handle with
    | some r => !((reqAccess first r).blocks.any (reqAccess q r).blocks.contains)
    | none => true)

/-- REMOTE_REQUEST_AT_OWNER (R340, R341): a request that has no room waits. -/
def execRemoteRequestAtOwner (r : RemoteReq) (s : State) : Host.Outcome State Fault Refusal :=
  if r.dev = s.devId then finish s s else finish s ((s.takeRequest r).getD s)

/-- CANCEL_AT_OWNER (R348). -/
def execCancelAtOwner (dev : Nat) (core : Nat) (ctx : Nat) (handle : Nat) (block : Nat) (s : State) : Host.Outcome State Fault Refusal :=
  finish s (s.modMsys fun m => { m with tickets := m.tickets.filter fun t =>
    !(t.dev == dev && t.core == core && t.ctx == ctx && t.handle == handle && t.block == block) })

/-- OWNER_REFUSES_SERVICE (R341, R353): REFUSE goes to the requester, and the entry closes. -/
def execOwnerRefusesService (ticket : Nat) (s : State) : Host.Outcome State Fault Refusal :=
  match (s.msys.tickets.find? fun t => t.id == ticket).filter fun _ => s.serves .faults with
  | none => finish s s
  | some t =>
    let u := s.hubPacket t.dev 1 t.ctx (.answer t.core 0 (.refuse ticket))
    finish s (u.modMsys fun m => { m with tickets := m.tickets.filter fun e => e.id != ticket })

/-! ### At the requester -/

/-- Whether a context's Bench entries on a core take notices: it is not saved there (R345). -/
def State.benchLive (s : State) (core ctx : Nat) : Bool :=
  match s.cctx? core ctx with
  | some y => !y.saved
  | none => false

/-- A ticket reaches a Bench entry (R344): a store's completion, or the reference of an atomic (R346), is sent now. The firing
keeps its job, which the replay sends again. A copy's writes are not acknowledged by it (R227, R262). -/
def State.takeTicketFor (s : State) (b : Bench) (ticket block gen : Nat) : State :=
  match s.chest? b.core b.ctx b.order with
  | none => s
  | some e =>
    let s := s.modBench b.core b.idx fun b => { b with st := 1, ticket := ticket, block := block, ogen := gen, ticketed := true }
    match b.part, s.firing? b.fid with
    | some q, _ => if q.op = .write ∧ b.ticketed = false ∧ e.eng ≠ 3 then s.noteGot b q [] false else s
    | none, some f =>
      if e.st ≠ 0 ∨ (s.copyOf f).isSome = true then s
      else match f.job with
        | .store _ | .scalarStore _ _ _ | .snapshot _ _ => s.answer e f f.outs f.job s.ck
        | .atomic _ _ _ _ _ _ | .invoke _ _ _ _ => s.answer e f (allScalars f.outs b.ref false) f.job s.ck
        | _ => s
    | none, none => s

/-- TICKET_RECEIPT (R344): Bench entry n of a core; none of a context that `dolz` holds (R193). -/
def execTicketReceipt (core : Nat) (n : Nat) (ticket : Nat) (block : Nat) (gen : Nat) (s : State) : Host.Outcome State Fault Refusal :=
  match (s.benchOf core).find? fun b => b.idx == n with
  | some b => if (b.st = 0 ∨ b.st = 3) ∧ s.held b.ctx = false then finish s (s.takeTicketFor b ticket block gen) else finish s s
  | none => finish s s

/-- Whether a Bench entry holds a ticket that a notice to a context on a core names (R341, R344): the ticket's key names them too. -/
def Bench.noticed (b : Bench) (core ctx owner ticket : Nat) : Bool :=
  b.core == core && b.ctx == ctx && b.owner == owner && b.ticket == ticket && b.ticketed && (b.st == 1 || b.st == 2 || b.st == 3)

/-- A REPLAY marks its entries notified, and those of a running context are sent again (R344, R345). -/
def State.takeReplay (s : State) (core ctx owner ticket : Nat) : State :=
  let hit (b : Bench) : Bool := b.noticed core ctx owner ticket
  let s := s.modMsys fun m => { m with bench := modify (fun b => hit b && b.st == 1) (fun b => { b with st := 2 }) m.bench }
  s.resendNotified fun b => hit b && s.runs b.ctx

/-- The Bench entry that names a ticket; the event does not name the owner (log 26). -/
def State.ticketBench (s : State) (ticket : Nat) : Option Bench :=
  s.msys.bench.find? fun b => b.ticketed && b.ticket == ticket && (b.st == 1 || b.st == 2 || b.st == 3)

/-- Whether a REPLAY is addressed to a context that is saved on a core (R345). -/
def State.replayHeld (s : State) (core ctx owner ticket : Nat) : Bool :=
  !s.benchLive core ctx && s.msys.bench.any fun b => b.noticed core ctx owner ticket

/-- A REPLAY reaches the requester: one addressed to a saved context is refused, and its owner sends it again (R293, R344, R345). -/
def State.replayAt (s : State) (core ctx owner ticket : Nat) : State :=
  if s.replayHeld core ctx owner ticket then s.sendPacket core ctx owner 1 false (.replayRefused core ticket)
  else s.takeReplay core ctx owner ticket

/-- REPLAY_NOTICE (R344, R345); none of a context that `dolz` holds (R193). -/
def execReplayNotice (ticket : Nat) (s : State) : Host.Outcome State Fault Refusal :=
  match (s.ticketBench ticket).filter fun b => !s.held b.ctx with
  | some b => finish s (s.replayAt b.core b.ctx b.owner ticket)
  | none => finish s s

/-- A REFUSE frees every entry of the block (R344): none of them is sent again. -/
def State.takeRefuse (s : State) (b : Bench) : State :=
  if s.benchLive b.core b.ctx then
    s.failBenches b.core b.ctx (s.msys.bench.filter fun e => e.core == b.core && e.ctx == b.ctx && e.owner == b.owner && e.ohandle == b.ohandle
      && (e.st == 1 || e.st == 2 || e.st == 3 || e.st == 5) && e.forBlocks.contains b.block)
  else s

/-- REFUSE_NOTICE (R344); none of a context that `dolz` holds (R193). -/
def execRefuseNotice (ticket : Nat) (s : State) : Host.Outcome State Fault Refusal :=
  match (s.ticketBench ticket).filter fun b => !s.held b.ctx with
  | some b => finish s (s.takeRefuse b)
  | none => finish s s

/-- REJECT_ANSWER (R344): Bench entry n of a core; none of a context that `dolz` holds (R193). -/
def execRejectAnswer (core : Nat) (n : Nat) (s : State) : Host.Outcome State Fault Refusal :=
  match (s.benchOf core).find? fun b => b.idx == n with
  | some b => if (b.st = 0 ∨ b.st = 3) ∧ s.benchLive core b.ctx = true ∧ s.held b.ctx = false then finish s (s.failBenches core b.ctx [b])
    else finish s s
  | none => finish s s

end Sys2Proof.Machine
end

