-- ==== Sys2Proof/Machine/Fabric.lean ====
section
/-! DEFINITION. The fabric: packets (R324, R326 to R330), their age (R214), flits and flit groups (R331 to R333), sessions and keys (R334,
R336), the port lock (R335) and fenced package links (R325). -/

namespace Sys2Proof.Machine

/-! ### Flits (R331) -/

/-- k n, with n evaluated first. -/
def evaluated {α : Type} (n : Nat) (k : Nat → α) : α :=
  match n with
  | 0 => k 0
  | m + 1 => k (m + 1)

/-- CRC-32C over one more bit, low bit first. -/
def crcBit (c : Nat) : Nat := if c % 2 = 1 then c / 2 ^^^ 0x82F63B78 else c / 2

/-- CRC-32C over bytes, from a remainder on. -/
def crcFrom : List Byte → Nat → Nat
  | [], c => c
  | b :: t, c => evaluated ((List.range 8).foldl (fun c _ => crcBit c) (c ^^^ b.toNat)) (crcFrom t)

/-- CRC-32C of bytes. -/
def crc32c (bs : List Byte) : BitVec 32 := ~~~(BitVec.ofNat 32 (crcFrom bs 0xFFFFFFFF))

/-- The CRC that a flit should carry. -/
def flitCrc (f : BitVec 512) : BitVec 32 := crc32c (leBytes 60 (f.toNat % 2^480))

/-- Whether a flit's CRC is right. -/
def flitOk (f : BitVec 512) : Bool := f.extractLsb' 480 32 == flitCrc f

/-- SEQ of a flit. -/
def flitSeq (f : BitVec 512) : Nat := (f.extractLsb' 464 16).toNat
/-- FT of a flit. -/
def flitType (f : BitVec 512) : Nat := (f.extractLsb' 462 2).toNat
/-- KGEN of a flit. -/
def flitKgen (f : BitVec 512) : Nat := (f.extractLsb' 454 2).toNat
/-- HOP of a flit. -/
def flitHop (f : BitVec 512) : Nat := (f.extractLsb' 459 3).toNat
/-- CLS of a flit. -/
def flitCls (f : BitVec 512) : Nat := (f.extractLsb' 457 2).toNat
/-- PSN of a flit. -/
def flitPsn (f : BitVec 512) : Bool := f.getLsbD 456
/-- BODY of a flit. -/
def flitBody (f : BitVec 512) : BitVec 448 := f.extractLsb' 0 448
/-- The header bits of a flit that its tag covers (R332). -/
def flitHeader (f : BitVec 512) : BitVec 32 := f.extractLsb' 448 32

/-- A flit with its CRC. -/
def mkFlit (seq ft hop cls : Nat) (psn : Bool) (kgen : Nat) (body : BitVec 448) : BitVec 512 :=
  let f := BitVec.ofNat 512 (body.toNat + kgen % 4 * 2^454 + psn.toNat * 2^456 + cls % 4 * 2^457 + hop % 8 * 2^459 + ft % 4 * 2^462
    + seq % 2^16 * 2^464)
  f ||| (flitCrc f).zeroExtend 512 <<< 480

/-- The body of a control flit (R333): its message in BODY[7:0], then its value (log 15). -/
def ctlBody (message value : Nat) : BitVec 448 := BitVec.ofNat 448 (message % 256 + value * 256)

/-- A control flit (R331, R332): it stands outside groups and carries only its CRC; the model numbers and keys none (log 15). -/
def ctlFlit (body : BitVec 448) : BitVec 512 := mkFlit 0 2 0 0 false 0 body

/-! ### Ports -/

/-- A port by number. -/
def State.port? (s : State) (p : Nat) : Option Port := s.fabric.ports[p]?

/-- Change a port. -/
def State.modPort (s : State) (p : Nat) (f : Port → Port) : State :=
  s.modFabric fun g => { g with ports := g.ports.modify p f }

/-- Send a control message (R333). -/
def Port.say (p : Port) (message value : Nat) : Port := { p with out := p.out ++ [ctlFlit (ctlBody message value)] }

/-- Ask for a retrain of the link (R333). -/
def Port.askRetrain (p : Port) : Port := p.say 6 0

/-- The pieces of up to n bytes that bytes make; `fuel` bounds their number. -/
def pieces (n : Nat) : Nat → List Byte → List (List Byte)
  | 0, _ => []
  | _ + 1, [] => []
  | fuel + 1, b :: t => (b :: t).take n :: pieces n fuel ((b :: t).drop n)

/-- Send an SPDM message in fragments of 55 bytes, each in a control flit (R333, R334; log 15). -/
def Port.saySpdm (p : Port) (bytes : List Byte) : Port :=
  { p with out := p.out ++ (pieces 55 bytes.length bytes).map fun c => ctlFlit (ctlBody 5 (leNat c)) }

/-- Erase a port's keys (R335). -/
def Port.eraseKeys (p : Port) : Port :=
  { p with keys := false, spdm := .none, txOld := none, rxOld := none, pendingUpdate := false, groups := 0, rxGroups := 0 }

/-- The fabric manager assigns the device id at bring-up; once a port is not unlocked the id is locked with it (R326, R335). -/
def State.assignId (s : State) (id : Nat) : State :=
  if s.fabric.ports.all (fun t => t.st == .unlocked) ∧ id < 2^18 then { s with devId := id } else s

/-- Nothing is held for a port any more: no packet waits for a flit group, in one that is not acknowledged, or for its other part. -/
def Port.discard (p : Port) : Port :=
  { p with replay := [], forming := [], parts := [], carried := [], discardTo := none, credit := vcWeights }

/-- The hub of a fabric port (R323). -/
def portHub (p : Nat) : Nat := p / 9

/-- The route entry of a device (R326). -/
def State.route (s : State) (dev : Nat) : BitVec 32 := ((s.fabric.routes.find? fun q => q.1 == dev).map (·.2)).getD 0

/-- The port that R327 chooses for a packet. -/
def State.portFor (s : State) (p : Packet) : Nat :=
  let e := s.route p.dstDev
  if (p.srcCore + p.ctx) % 2 = 0 then (e.extractLsb' 0 5).toNat else (e.extractLsb' 5 5).toNat

/-- The hub through which a packet for another device leaves (R324). -/
def State.leaveHub (s : State) (p : Packet) : Nat := portHub (s.portFor p)

/-- Whether a packet comes from a core of this device, over its die's link to the hub; the others begin at a hub. -/
def State.fromDie (s : State) (p : Packet) : Bool :=
  p.srcDev == s.devId && match p.body with
    | .token _ | .request _ => true
    | _ => false

/-- Whether a packet cannot reach the hub through which it leaves, its die's link to it being fenced (R324, R325). -/
def State.cutOff (s : State) (p : Packet) : Bool :=
  s.fromDie p && s.fabric.pkg.any fun k => k.fenced && k.die == dieOf p.srcCore && k.hub == s.leaveHub p

/-- A packet is lost: its context is lost at its source, which is told where it is another device; of an undeliverable notice itself nothing
follows (R327, R335; log 68). -/
def State.losePacket (s : State) (p : Packet) : State :=
  match p.body with
    | .answer _ _ (.undeliverable _) => s
    | _ => if p.srcDev = s.devId then s.lose p.ctx else s.sendPacket 0 p.ctx p.srcDev 1 false (.answer 0 0 (.undeliverable p.ctx))

/-- Whether a packet waits for a port. -/
def State.waitsFor (s : State) (k : Nat) (q : Packet) : Bool :=
  q.dstDev != s.devId && (s.route q.dstDev).getLsbD 31 && s.portFor q == k

/-- A port goes to ERROR (R335): keys erased, its packets discarded. -/
def State.portError (s : State) (p : Nat) : State :=
  let held := s.waitsFor p
  let gone := ((s.port? p).map Port.packets).getD [] ++ s.fabric.packets.filter held
  let s := (s.modPort p fun t => { t.discard.eraseKeys with st := .error }).record (.portError p)
  gone.foldl State.losePacket (s.modFabric fun g => { g with packets := g.packets.filter fun q => !held q })

/-! ### Packets -/

/-- Whether two packets belong to one flow: same source, context, destination and class. -/
def Packet.sameFlow (p q : Packet) : Bool :=
  p.srcDev == q.srcDev && p.srcCore == q.srcCore && p.ctx == q.ctx && p.dstDev == q.dstDev && p.cls == q.cls

/-- Whether a packet stays before a later one (R17, R212, R342): they belong to one flow, or both are requests of one context from one core to
one object, of whatever class. -/
def Packet.leads (p q : Packet) : Bool :=
  p.sameFlow q || (p.srcDev == q.srcDev && p.srcCore == q.srcCore && p.ctx == q.ctx && p.dstDev == q.dstDev && match p.body, q.body with
    | .request a, .request b => a.handle == b.handle
    | _, _ => false)

/-- Whether `dolz` holds what a packet belongs to (R193; log 65): it comes from a core for a context of this device that is held, or brings a token or
an answer to one. -/
def State.heldPacket (s : State) (p : Packet) : Bool :=
  match p.body with
  | .token nt => (p.srcDev == s.devId && s.held p.ctx) || (p.dstDev == s.devId && s.held nt.tok.ctx)
  | .request _ | .retire _ | .cancel _ _ => p.srcDev == s.devId && s.held p.ctx
  | .answer _ _ _ => p.dstDev == s.devId && s.held p.ctx
  | .refused nt => p.dstDev == s.devId && s.held nt.tok.ctx
  | .acked _ | .replayRefused _ _ => false

/-- Whether a packet at its destination goes before an earlier one: both are requests, and the earlier one waits for room in the ticket table
(R341). -/
def State.overtakes (s : State) (q p : Packet) : Bool :=
  p.dstDev == s.devId && match q.body, p.body with
    | .request a, .request b => s.passesTicket a b
    | _, _ => false

/-- Whether no earlier packet that must stay before packet n holds it back (R17, R212, R341, R342). -/
def State.flowFirst (s : State) (n : Nat) (p : Packet) : Bool :=
  !((s.fabric.packets.take n).any fun q => q.leads p && !s.overtakes q p)

/-- The packets that wait at a hub for a port, with their places: none that is held, and none of another class than an earlier one that must
stay before it (R193, R342). -/
def State.waitingAt (s : State) (k : Nat) : List (Packet × Nat) :=
  s.fabric.packets.zipIdx.filter fun q => s.waitsFor k q.1 && !s.cutOff q.1 && !s.heldPacket q.1
    && !((s.fabric.packets.take q.2).any fun p => p.leads q.1 && p.cls != q.1.cls)

/-- The class that a link serves (R214, R328): the first with a packet and a turn left in this round, else the first with a packet, in a
new round (log 68). -/
def servedClass (credit : List Nat) (qs : List Packet) : Nat :=
  let some_ (c : Nat) : Bool := qs.any fun q => q.cls == c
  match (List.range 4).find? fun c => some_ c && credit.getD c 0 != 0 with
  | some c => c
  | none => ((List.range 4).find? some_).getD 0

/-- What each class may still send in the round after one packet of class c (R214). -/
def spendCredit (credit : List Nat) (c : Nat) : List Nat :=
  (if credit.getD c 0 = 0 then vcWeights else credit).modify c fun n => n - 1

/-- Which of some packets of one virtual channel goes first (R214): of those promoted the oldest, else the one that came first. -/
def channelHead (qs : List (Packet × Nat)) : Option Nat :=
  match ((qs.filter fun q => q.1.promoted).map fun q => q.1.since).min? with
  | some k => (qs.find? fun q => q.1.promoted && q.1.since == k).map (·.2)
  | none => qs.head?.map (·.2)

/-- The place of the packet that a port takes next (R214, R328): of the class that it serves, in the highest waiting hop level, the first
of its channel. -/
def State.portHead (s : State) (k : Nat) (t : Port) : Option Nat :=
  let qs := s.waitingAt k
  let c := servedClass t.credit (qs.map (·.1))
  let top := ((qs.filter fun q => q.1.cls == c).map fun q => q.1.hops).max?.getD 0
  channelHead (qs.filter fun q => q.1.cls == c && q.1.hops == top)

/-- Take packet n out. -/
def State.takePacket (s : State) (n : Nat) : State := s.modFabric fun g => { g with packets := g.packets.eraseIdx n }

/-- An undeliverable notice (R327): the context is lost. -/
def State.noticeLost (s : State) (ctx : Nat) : State := if (s.ctx? ctx).isSome then s.lose ctx else s

/-- The Bench entry of an answer. -/
def State.benchAt (s : State) (core ctx order : Nat) : Option Bench :=
  s.msys.bench.find? fun b => b.core == core && b.ctx == ctx && b.order == order && (b.st == 0 || b.st == 3)

/-- An answer or notice of an owner reaches this device (R344). -/
def State.takeReply (s : State) (p : Packet) (core order : Nat) (a : Answer) : State :=
  match a with
  | .data bs => s.takeAnswer core p.ctx order (some bs) none p.poison
  | .ack => s.takeAnswer core p.ctx order none none false
  | .old w ok fl => s.takeAnswer core p.ctx order none (some (w, ok, fl)) p.poison
  | .ticket id block gen => match s.benchAt core p.ctx order with
    | some b => s.takeTicketFor b id block gen
    | none => s
  | .reject => match s.benchAt core p.ctx order with
    | some b => if s.benchLive core p.ctx then s.failBenches core p.ctx [b] else s
    | none => s
  | .replay id => s.replayAt core p.ctx p.srcDev id
  | .refuse id => match s.msys.bench.find? fun b => b.noticed core p.ctx p.srcDev id with
    | some b => s.takeRefuse b
    | none => s
  | .undeliverable ctx => s.noticeLost ctx

/-- Whether a token of another device is refused at the hub (R293): its context is saved, or one of its source for its destination has
been refused and has not come again, so that order holds (R17). -/
def State.refuses (s : State) (dev : Nat) (nt : NetTok) : Bool :=
  decide (s.arrival nt.tok = .hold)
    || (nt.fromDev.isNone && s.fabric.refusing.contains { dev := dev, src := nt.srcCore, ctx := nt.tok.ctx, dst := nt.tok.core })

/-- A token of another device is refused: it goes back to its source, which keeps it as refused by this device (R293). -/
def State.refuse (s : State) (p : Packet) (nt : NetTok) : State :=
  let r : Refused := { dev := p.srcDev, src := nt.srcCore, ctx := nt.tok.ctx, dst := nt.tok.core }
  (s.modFabric fun f => { f with refusing := if nt.fromDev.isSome then f.refusing else f.refusing ++ [r] }).sendPacket
    0 p.ctx p.srcDev 1 false (.refused { nt with fromDev := some s.devId })

/-- A token of another device enters this one (R66, R327). -/
def State.letIn (s : State) (p : Packet) (nt : NetTok) : State :=
  let r : Refused := { dev := p.srcDev, src := nt.srcCore, ctx := nt.tok.ctx, dst := nt.tok.core }
  let s := s.modFabric fun f => { f with refusing := if nt.fromDev.isSome then f.refusing.erase r else f.refusing }
  s.launchTok { nt with fromDev := some p.srcDev, toDev := none }

/-- What a packet does at its destination; none while it must wait. A token that comes back refused is kept in the order of refusal,
before those that wait behind one (R293). -/
def State.deliver (s : State) (p : Packet) : Option State :=
  match p.body with
  | .token nt => some (if s.refuses p.srcDev nt then s.refuse p nt else s.letIn p nt)
  | .refused nt => some (s.modFabric fun f => { f with
      refused := f.refused.filter (fun q => q.fromDev.isSome) ++ nt :: f.refused.filter fun q => q.fromDev.isNone })
  | .request r => s.takeRequest r
  | .answer core order a => some (s.takeReply p core order a)
  | .replayRefused core id => some (s.modFabric fun f => { f with replays := f.replays ++ [{ dev := p.srcDev, ctx := p.ctx, core := core, id := id }] })
  | .cancel h b => some (s.modMsys fun m => { m with tickets := m.tickets.filter fun t =>
      !(t.dev == p.srcDev && t.core == p.srcCore && t.ctx == p.ctx && t.handle == h && t.block == b) })
  | .retire tag => some (s.modMsys fun m => { m with tags := m.tags.filter fun t => !(t.dev == some p.srcDev && t.tag == tag) })
  | .acked n => some (s.acknowledge p.srcDev n)

/-- Whether a packet is acknowledged when it is delivered (R330): a token or a REPLAY that is refused counts until it has come again. -/
def State.isAcked (s : State) (p : Packet) : Bool :=
  p.srcDev != s.devId && match p.body with
    | .acked _ => false
    | .token nt => !s.refuses p.srcDev nt
    | .answer core _ (.replay id) => !s.replayHeld core p.ctx p.srcDev id
    | _ => true

/-- The end-to-end acknowledgement of packets of a device (R330). -/
def State.ackPacket (s : State) (dev ctx : Nat) : State := s.sendPacket 0 ctx dev 1 false (.acked 1)

/-! ### Flit groups (R332) -/

/-- The bytes of a link's key. -/
def keyBytes (k : BitVec 256) : List Byte := Gcm.beBytes 32 k.toNat

/-- The nonce of a group (R332), as 12 bytes, the highest first (log 67). -/
def groupNonce (kgen seq count : Nat) : List Byte := Gcm.beBytes 12 (kgen % 4 * 2^80 + seq % 2^16 * 2^64 + count % 2^64)

/-- What a group's tag covers beside its bodies (R332): the headers of all its flits (log 67). -/
def groupAad (fs : List (BitVec 512)) : List Byte := fs.flatMap fun f => leBytes 4 (flitHeader f).toNat

/-- The bytes of some bodies. -/
def bodiesBytes (bs : List (BitVec 448)) : List Byte := bs.flatMap fun b => leBytes 56 b.toNat

/-- Body i of some bytes. -/
def bodyAt (bs : List Byte) (i : Nat) : BitVec 448 := BitVec.ofNat 448 (leNat ((bs.drop (56 * i)).take 56))

/-- The flits of a group (R331, R332): its bodies as ciphertext, and the tag flit. -/
def groupFlits (key : BitVec 256) (kgen seq count : Nat) (bs : List FlitBody) : List (BitVec 512) :=
  let nonce := groupNonce kgen seq count
  let cipher := Gcm.crypt (keyBytes key) nonce (bodiesBytes (bs.map (·.body)))
  let data := bs.zipIdx.map fun q => mkFlit (seq + q.2) 0 q.1.hop q.1.cls q.1.psn kgen (bodyAt cipher q.2)
  let tagFlit (tag : List Byte) : BitVec 512 := mkFlit (seq + bs.length) 1 0 0 false kgen (BitVec.ofNat 448 (leNat tag))
  data ++ [tagFlit (Gcm.tag (keyBytes key) nonce (groupAad (data ++ [tagFlit []])) cipher)]

/-- Send the first n waiting bodies as a group (R332, R333): its flits are kept until they are acknowledged. -/
def Port.sendGroup (t : Port) (n : Nat) : Port :=
  let bs := t.forming.take n
  let fs := groupFlits (Config.linkKey t.keyId t.txGen true) t.txGen t.txSeq t.groups bs
  { t with
    forming := t.forming.drop n
    replay := t.replay ++ fs
    out := t.out ++ fs
    carried := t.carried ++ (bs.zipIdx.filterMap fun q => q.1.last.map fun p => ((t.txSeq + q.2) % 2^16, p))
    txSeq := (t.txSeq + fs.length) % 2^16
    groups := t.groups + 1
    txNew := if t.txOld.isSome then t.txNew + bs.length else t.txNew }

/-- Close the groups that can be (R332, R333, R336): those of 7 data flits, and with `rest` what remains, while the window of 512 flits
and the key have room. -/
def Port.closeGroups (rest : Bool) : Nat → Port → Port
  | 0, t => t
  | fuel + 1, t =>
    let n := min 7 t.forming.length
    if (n = 7 ∨ (rest = true ∧ 0 < n)) ∧ t.replay.length + n + 1 ≤ 512 ∧ t.groups + 1 < 2^32 then (t.sendGroup n).closeGroups rest fuel else t

/-- The full groups of a port leave. -/
def Port.closeFull (t : Port) : Port := t.closeGroups false t.forming.length

/-- A packet's bytes join those that wait for a flit group of its port (R331, R332). -/
def Port.take (t : Port) (p : Packet) : Port :=
  let bodies := Config.packetBodies p
  let flits := bodies.zipIdx.map fun q => ({ hop := p.hops, cls := p.cls, psn := p.poison, body := q.1,
                                             last := if q.2 + 1 = bodies.length then some p else none } : FlitBody)
  ({ t with forming := t.forming ++ flits, credit := spendCredit t.credit p.cls }).closeFull

/-- A packet goes to the port that its route entry names: none while the link does not run, another packet leaves first, or seven bodies
wait for a group that cannot be sent. -/
def State.sendOn (s : State) (n : Nat) (p : Packet) : Option State :=
  let k := s.portFor p
  match s.port? k with
  | some t =>
    if t.st = .run ∧ s.portHead k t = some n ∧ t.forming.length < 7 then some ((s.takePacket n).modPort k fun t => t.take p) else none
  | none => none

/-- FABRIC_PACKET_FORWARD (R327, R330, R333, R335): packet n is delivered, forwarded on the port its route entry names, or found
undeliverable; none of a context that `dolz` holds (R193). -/
def execFabricPacketForward (n : Nat) (s : State) : Host.Outcome State Fault Refusal :=
  match s.fabric.packets[n]? with
  | none => finish s s
  | some p =>
    if s.heldPacket p then finish s s
    else if p.dstDev = s.devId then
      match if s.flowFirst n p then (s.takePacket n).deliver p else none with
      | some t => finish s (if s.isAcked p then t.ackPacket p.srcDev p.ctx else t)
      | none => finish s s
    else
      let e := s.route p.dstDev
      if e.getLsbD 31 = false ∨ 8 < p.hops + (e.extractLsb' 10 4).toNat then
        finish s (if s.flowFirst n p then ((s.takePacket n).record (.fabricError p.dstDev)).losePacket p else s)
      else finish s ((s.sendOn n p).getD s)

/-- UNDELIVERABLE_NOTICE (R327). -/
def execUndeliverableNotice (ctx : Nat) (s : State) : Host.Outcome State Fault Refusal := finish s (s.noticeLost ctx)

/-- FABRIC_ACK (R330). -/
def execFabricAck (dev : Nat) (count : Nat) (s : State) : Host.Outcome State Fault Refusal := finish s (s.acknowledge dev count)

/-- The promotion threshold of a link (R214). -/
def State.threshold (s : State) (link : Nat) : Nat := ((s.fabric.promo.find? fun q => q.1 == link).map (·.2)).getD 1024

/-- PACKET_AGE_PROMOTION (R214): packet n, queued for its port long enough, moves to the head of its channel, among the promoted ones
by age; an older one of its flow goes first. -/
def execPacketAgePromotion (n : Nat) (s : State) : Host.Outcome State Fault Refusal :=
  match s.fabric.packets[n]? with
  | none => finish s s
  | some p =>
    if p.promoted = true ∨ p.dstDev = s.devId ∨ s.ck < p.since + s.threshold (s.portFor p)
        ∨ ((s.fabric.packets.take n).any fun q => p.sameFlow q && !q.promoted) = true then finish s s
    else finish s (s.modFabric fun g => { g with packets := g.packets.modify n fun q => { q with promoted := true } })

/-- PROMOTION_THRESHOLD_SET (R214). -/
def execPromotionThresholdSet (link : Nat) (v : Nat) (s : State) : Host.Outcome State Fault Refusal :=
  if 64 ≤ v ∧ v ≤ 65535 then finish s (s.modFabric fun g => { g with promo := upsert (fun q => q.1 == link) (link, v) g.promo })
  else finish s s

/-! ### The link layer (R332, R333, R336) -/

/-- The key generation and group count that a received group's KGEN names; none for an erased one (R336). -/
def Port.rxKey (t : Port) (kgen : Nat) : Option (Nat × Nat × Bool) :=
  if t.rxGen % 4 = kgen then some (t.rxGen, t.rxGroups, true)
  else match t.rxOld with
    | some g => if g % 4 = kgen then some (g, t.rxOldGroups, false) else none
    | none => none

/-- A damaged group (R333 step 2): NACK its first flit and discard until it comes again. -/
def Port.damaged (t : Port) : Port := { t.say 2 t.rxSeq with discardTo := some t.rxSeq }

/-- Whether flits make one group: 1 to 7 data flits, then a tag flit, consecutive, under one KGEN. -/
def groupShape (fs : List (BitVec 512)) : Bool :=
  let n := fs.length
  decide (2 ≤ n ∧ n ≤ 8) && (fs.zipIdx).all fun q => flitType q.1 == (if q.2 + 1 = n then 1 else 0)
    && flitSeq q.1 == (flitSeq (fs.headD 0) + q.2) % 2^16 && flitKgen q.1 == flitKgen (fs.headD 0)

/-- Whether a body of a port's virtual channel. -/
def FlitBody.isOn (b : FlitBody) (hop cls : Nat) : Bool := b.hop == hop && b.cls == cls

/-- A packet of which a flit said that it is poison is delivered with its poison kind (R301, R331). -/
def PacketBody.poisoned : PacketBody → PacketBody
  | .token nt => .token { nt with tok := { nt.tok with kind := if nt.tok.kind = 0 then 5 else if nt.tok.kind = 1 then 6 else nt.tok.kind, psn := true } }
  | b => b

/-- The packets that the received bodies of one virtual channel make (R328, R331): each has crossed one link more. -/
def Port.assemble (hop cls ck : Nat) : Nat → Port → Port × List Packet
  | 0, t => (t, [])
  | fuel + 1, t =>
    let bs := t.parts.filter fun b => b.isOn hop cls
    match Config.packetOf (bs.map (·.body)) with
    | some (n + 1, p) =>
      if bs.length < n + 1 then (t, []) else
      let psn := (bs.take (n + 1)).any (·.psn)
      let q : Packet := { p with hops := hop + 1, cls := cls, poison := psn, body := if psn then p.body.poisoned else p.body, since := ck,
                                 promoted := false }
      let r := ({ t with parts := t.parts.filter (fun (b : FlitBody) => !b.isOn hop cls) ++ bs.drop (n + 1) }).assemble hop cls ck fuel
      (r.1, q :: r.2)
    | _ => (t, [])

/-- Packets that a port has received join those at the hubs (R327). -/
def State.receive (s : State) (port : Nat) : State :=
  (List.range 32).foldl (fun s v => match s.port? port with
    | some t =>
      let r := t.assemble (v / 4) (v % 4) s.ck t.parts.length
      (s.modPort port fun _ => r.1).modFabric fun g => { g with packets := g.packets ++ r.2 }
    | none => s) s

/-- The tag that a received group should carry, and its bodies (R331, R332). -/
def openGroup (key : BitVec 256) (nonce : List Byte) (fs : List (BitVec 512)) : List Byte × List FlitBody :=
  let data := fs.dropLast
  let cipher := bodiesBytes (data.map flitBody)
  let text := Gcm.crypt (keyBytes key) nonce cipher
  (Gcm.tag (keyBytes key) nonce (groupAad fs) cipher,
   data.zipIdx.map fun q => { hop := flitHop q.1, cls := flitCls q.1, psn := flitPsn q.1, body := bodyAt text q.2, last := none })

/-- A group whose tag verifies is acknowledged and its bodies are taken (R332, R333, R336). -/
def Port.accept (t : Port) (fs : List (BitVec 512)) (bs : List FlitBody) (current : Bool) : Port :=
  { t.say 1 (flitSeq (fs.getLastD 0)) with
    parts := t.parts ++ bs
    rxSeq := (t.rxSeq + fs.length) % 2^16
    discardTo := none
    rxGroups := if current then t.rxGroups + 1 else t.rxGroups
    rxOldGroups := if current then t.rxOldGroups else t.rxOldGroups + 1
    rxNew := if current ∧ t.rxOld.isSome then t.rxNew + bs.length else t.rxNew }

/-- FLIT_GROUP_RECEIVE (R331 to R333, R335, R336): no byte of a group is delivered before its tag verifies. -/
def execFlitGroupReceive (port : Nat) (flits : List (BitVec 512)) (s : State) : Host.Outcome State Fault Refusal :=
  match s.port? port with
  | none => finish s s
  | some t =>
    let seq := flitSeq (flits.headD 0)
    let behind := (t.rxSeq + 2^16 - seq) % 2^16
    if t.st ≠ .run ∨ flits = [] ∨ (t.discardTo.isSome = true ∧ t.discardTo ≠ some seq) then finish s s
    else if flits.any (fun f => flitOk f && flitType f == 3) then finish s (s.modPort port Port.askRetrain)
    else if flits.all flitOk = false then finish s (s.modPort port Port.damaged)
    else if (t.rxKey (flitKgen (flits.headD 0))).isNone then finish s (s.modPort port Port.askRetrain)
    else if 1 ≤ behind ∧ behind ≤ 512 then finish s (s.modPort port fun t => t.say 1 ((t.rxSeq + 2^16 - 1) % 2^16))
    else if behind ≠ 0 ∨ groupShape flits = false then finish s (s.modPort port Port.damaged)
    else match t.rxKey (flitKgen (flits.headD 0)) with
      | none => finish s (s.modPort port Port.askRetrain)
      | some (gen, count, current) =>
        let r := openGroup (Config.linkKey t.keyId gen false) (groupNonce (flitKgen (flits.headD 0)) seq count) flits
        if leBytes 16 ((flits.getLastD 0).extractLsb' 0 128).toNat = r.1 then
          finish s ((s.modPort port fun t => t.accept flits r.2 current).receive port)
        else finish s (s.portError port)

/-- The place of a SEQ among the flits that a sender holds. -/
def Port.held (t : Port) (seq : Nat) : Option Nat := t.replay.findIdx? fun f => flitSeq f == seq

/-- Whether a port's link carries the traffic of RUN. -/
def State.portRuns (s : State) (p : Nat) : Bool := (s.port? p).any fun t => t.st == .run

/-- The flits after place i are left to acknowledge (R333), and groups that waited for the window leave. -/
def Port.ackedTo (t : Port) (i : Nat) : Port :=
  let left := t.replay.drop (i + 1)
  ({ t with replay := left, carried := t.carried.filter fun q => left.any fun f => flitSeq f == q.1 }).closeFull

/-- ACK (R333 steps 1 and 4). -/
def execAck (port : Nat) (seq : Nat) (s : State) : Host.Outcome State Fault Refusal :=
  if s.portRuns port then
    finish s (s.modPort port fun t => match t.held seq with
      | some i => t.ackedTo i
      | none => t.askRetrain)
  else finish s s

/-- NACK (R333 steps 3 and 4): the flits from the named one leave again, unchanged. -/
def execNack (port : Nat) (seq : Nat) (s : State) : Host.Outcome State Fault Refusal :=
  if s.portRuns port then
    finish s (s.modPort port fun t => match t.held seq with
      | some i => { t with out := t.out ++ t.replay.drop i }
      | none => t.askRetrain)
  else finish s s

/-- IDLE (R333): nothing changes. -/
def execIdle (port : Nat) (s : State) : Host.Outcome State Fault Refusal := finish s (s.modPort port id)

/-- KEYSW (R336): the peer's groups from here use the next generation. -/
def execKeysw (port : Nat) (gen : Nat) (s : State) : Host.Outcome State Fault Refusal :=
  match s.port? port with
  | some t =>
    if t.st = .run ∧ t.pendingUpdate = true ∧ gen = (t.rxGen + 1) % 4 then
      finish s (s.modPort port fun t => { t with
        rxOld := some t.rxGen, rxGen := t.rxGen + 1, rxNew := 0, rxOldGroups := t.rxGroups, rxGroups := 0, pendingUpdate := false })
    else finish s s
  | none => finish s s

/-- Whether a link has failed for good: three retrains failed in a row, or eight within 2^30 ck (R333). -/
def Port.worn (t : Port) : Bool := decide (3 ≤ t.failRow) || decide (8 ≤ t.retrains.length)

/-- The contexts with a core on a die. -/
def State.ctxsOnDie (s : State) (die : Nat) : List Nat :=
  (s.cores.filter fun y => decide (64 * die ≤ y.core ∧ y.core < 64 * (die + 1))).map (·.ctx) |>.eraseDups

/-- A package link's retrain (R325): link 2 · die + hub, or 12 between the hubs; the third failure in a row fences it. -/
def State.pkgRetrain (s : State) (link : Nat) (ok : Bool) : State :=
  let cur := (s.fabric.pkg.find? fun k => k.die == link / 2 && k.hub == link % 2).getD
    { die := link / 2, hub := link % 2, failRow := 0, fenced := false }
  if cur.fenced then s
  else
    let k := { cur with failRow := if ok then 0 else cur.failRow + 1, fenced := !ok && decide (2 ≤ cur.failRow) }
    let s := s.modFabric fun g => { g with pkg := upsert (fun q => q.die == k.die && q.hub == k.hub) k g.pkg }
    if k.fenced then (s.ctxsOnDie k.die).foldl State.lose s else s

/-- RETRAIN (R325, R333, R335): ports 0 to 17 are the fabric's, 18 to 30 the links of the package (log 29). -/
def execRetrain (port : Nat) (ok : Bool) (s : State) : Host.Outcome State Fault Refusal :=
  match s.port? port with
  | some t =>
    if t.st = .error then finish s s
    else
      let t' : Port := { t with
        failRow := if ok then 0 else t.failRow + 1
        retrains := (t.retrains.filter fun k => decide (s.ck < k + 2^30)) ++ [s.ck]
        out := if ok then t.out ++ t.replay else t.out }
      let u := s.modPort port fun _ => t'
      if t'.worn then finish s (u.portError port) else finish s u
  | none => if 18 ≤ port ∧ port ≤ 30 then finish s (s.pkgRetrain (port - 18) ok) else finish s s

/-- KEY_GENERATION_ERASE (R336): after 1,024 data flits under the new generation. -/
def execKeyGenerationErase (port : Nat) (tx : Bool) (s : State) : Host.Outcome State Fault Refusal :=
  match s.port? port with
  | some t =>
    if tx ∧ 1024 ≤ t.txNew then finish s (s.modPort port fun t => { t with txOld := none })
    else if !tx ∧ 1024 ≤ t.rxNew then finish s (s.modPort port fun t => { t with rxOld := none })
    else finish s s
  | none => finish s s

/-! ### SPDM (R334) -/

/-- The order of the phases. -/
def SpdmPhase.rank : SpdmPhase → Nat
  | .none => 0
  | .version => 1
  | .capabilities => 2
  | .algorithms => 3
  | .authenticated => 4
  | .exchanged => 5
  | .established => 6

/-- The algorithms that the HN7 speaks (R334). -/
def hn7Algs : SpdmAlgs :=
  { baseAsym := 0, extAsym := [(0x03, 0, 0x5A01)], hashSha256 := true, measSha256 := true, aeadAesGcm := true, dheP384 := true }

/-- The algorithms of a message. -/
def msgAlgs (m : SpdmMsg) : SpdmAlgs :=
  { baseAsym := m.baseAsym, extAsym := m.extAsym, hashSha256 := m.hashSha256, measSha256 := m.measSha256, aeadAesGcm := m.aeadAesGcm,
    dheP384 := m.dheP384 }

/-- Say something in a session, in answer to the bytes of a message. -/
def Port.reply (p : Port) (r : SpdmReply) (asked : List Byte) : Port := p.saySpdm (Config.spdmBytes r asked)

/-- Ask something in a session. -/
def Port.ask (p : Port) (r : SpdmReply) : Port := p.reply r []

/-- A message on a port: `f` gives the port after it, or none where it is refused; the answer `r` or a refusal leaves (R333, R334;
log 15). -/
def spdmWith (port : Nat) (m : SpdmMsg) (s : State) (r : SpdmReply) (f : Port → Option Port) : Host.Outcome State Fault Refusal :=
  match s.port? port with
  | some t =>
    if t.st = .error then finish s s
    else finish s (s.modPort port fun t => match f t with
      | some u => u.reply r m.bytes
      | none => t.reply .refused m.bytes)
  | none => finish s s

/-- Whether SPDM 1.2 or 1.3 is spoken. -/
def spdmVersionOk (m : SpdmMsg) : Bool := m.minor == 2 || m.minor == 3

/-- GET_VERSION (R334): a session begins anew on an unlocked port. -/
def execGetVersion (port : Nat) (m : SpdmMsg) (s : State) : Host.Outcome State Fault Refusal :=
  spdmWith port m s .version fun t => if spdmVersionOk m ∧ t.st = .unlocked then some { t.eraseKeys with spdm := .version } else none

/-- GET_CAPABILITIES (R334). -/
def execGetCapabilities (port : Nat) (m : SpdmMsg) (s : State) : Host.Outcome State Fault Refusal :=
  spdmWith port m s .capabilities fun t => if spdmVersionOk m ∧ t.spdm = .version then some { t with spdm := .capabilities } else none

/-- NEGOTIATE_ALGORITHMS (R334): SLH-DSA-SHA2-128s as the one extended algorithm, SHA-256 for both hashes, P-384 and AES-256-GCM; the
answer carries the same structure. -/
def execNegotiateAlgorithms (port : Nat) (m : SpdmMsg) (s : State) : Host.Outcome State Fault Refusal :=
  spdmWith port m s (.algorithms hn7Algs) fun t =>
    if spdmVersionOk m ∧ t.spdm = .capabilities ∧ msgAlgs m = hn7Algs then some { t with spdm := .algorithms } else none

/-- GET_DIGESTS (R334): answered once the algorithms stand. -/
def execGetDigests (port : Nat) (m : SpdmMsg) (s : State) : Host.Outcome State Fault Refusal :=
  spdmWith port m s .digests fun t => if spdmVersionOk m ∧ 3 ≤ t.spdm.rank then some t else none

/-- GET_CERTIFICATE (R334). -/
def execGetCertificate (port : Nat) (m : SpdmMsg) (s : State) : Host.Outcome State Fault Refusal :=
  spdmWith port m s .certificate fun t => if spdmVersionOk m ∧ 3 ≤ t.spdm.rank then some t else none

/-- CHALLENGE (R334): this device authenticates itself to its peer. -/
def execChallenge (port : Nat) (m : SpdmMsg) (s : State) : Host.Outcome State Fault Refusal :=
  spdmWith port m s .challengeAuth fun t =>
    if spdmVersionOk m ∧ t.spdm = .algorithms then some { t with spdm := .authenticated } else none

/-- GET_MEASUREMENTS (R334, R362): the answer reports the measurement registers. -/
def execGetMeasurements (port : Nat) (m : SpdmMsg) (s : State) : Host.Outcome State Fault Refusal :=
  spdmWith port m s (.measurements s.boot.measures) fun t => if spdmVersionOk m ∧ 4 ≤ t.spdm.rank then some t else none

/-- KEY_EXCHANGE (R334). -/
def execKeyExchange (port : Nat) (m : SpdmMsg) (s : State) : Host.Outcome State Fault Refusal :=
  spdmWith port m s .keyExchangeRsp fun t =>
    if spdmVersionOk m ∧ t.spdm = .authenticated then some { t with spdm := .exchanged } else none

/-- The session of a port is established, and its link keys are installed (R334): both ends have authenticated, and the peer's certificate attests
its device id. -/
def Port.establish (t : Port) (keyId dev : Nat) : Port :=
  { t with spdm := .established, keys := true, keyId := keyId, txGen := 0, rxGen := 0, txOld := none, rxOld := none, groups := 0, rxGroups := 0,
           attested := dev % 2^18, asking := none, failed := false }

/-- FINISH (R334): the requester, which has authenticated this device, authenticates itself, and the session is established. -/
def execFinish (port : Nat) (m : SpdmMsg) (s : State) : Host.Outcome State Fault Refusal :=
  spdmWith port m { s with nextId := s.nextId + 1 } .finishRsp fun t =>
    if spdmVersionOk m ∧ t.spdm = .exchanged ∧ Config.spdmAuthOk m.bytes = true then some (t.establish s.nextId m.dev) else none

/-- Whether a key rotation may begin (R335, R336): the port runs, since KEYSW is no SPDM flit, a session stands, and no previous generation is
held or still to be left. -/
def Port.mayRotate (t : Port) : Bool := t.st == .run && t.spdm == .established && t.txOld.isNone && t.rxOld.isNone && !t.pendingUpdate

/-- A rotation begins (R336): KEYSW leaves, this side's groups use the next generation from it on, and the peer's KEYSW is to come. -/
def Port.rotate (t : Port) : Port :=
  { t.say 4 ((t.txGen + 1) % 4) with pendingUpdate := true, txOld := some t.txGen, txGen := t.txGen + 1, txNew := 0, groups := 0 }

/-- KEY_UPDATE (R336): a rotation begins; it is refused while a previous generation is held. -/
def execKeyUpdate (port : Nat) (m : SpdmMsg) (s : State) : Host.Outcome State Fault Refusal :=
  spdmWith port m s .keyUpdateAck fun t => if spdmVersionOk m ∧ t.mayRotate then some t.rotate else none

/-- END_SESSION (R334): the keys of a locked port stay until it is unlocked (R335). -/
def execEndSession (port : Nat) (m : SpdmMsg) (s : State) : Host.Outcome State Fault Refusal :=
  spdmWith port m s .endSessionAck fun t =>
    if spdmVersionOk m = false ∨ t.spdm ≠ .established then none
    else if t.st = .unlocked then some t.eraseKeys else some { t with spdm := .none }

/-- PSK_EXCHANGE (R334): always refused. -/
def execPskExchange (port : Nat) (m : SpdmMsg) (s : State) : Host.Outcome State Fault Refusal := spdmWith port m s .refused fun _ => none

/-- The HN7's own requests of a bring-up, in their order (R334; log 15). -/
def bringUpAsks : List SpdmReply :=
  [.getVersion, .getCapabilities, .negotiateAlgorithms hn7Algs, .getDigests, .getCertificate, .challenge, .getMeasurements, .keyExchange, .finish]

/-- Whether a response to one of the HN7's own requests is as it must be (R334): ALGORITHMS carries the same structure; those that authenticate
the peer pass their checks. -/
def responseOk (asked : SpdmReply) (m : SpdmMsg) : Bool :=
  spdmVersionOk m && match asked with
    | .negotiateAlgorithms a => msgAlgs m == a
    | .getCertificate | .challenge | .getMeasurements | .keyExchange | .finish => Config.spdmAuthOk m.bytes
    | _ => true

/-- The bring-up of a port has failed (R334): nothing of the session stands. -/
def Port.bringUpFailed (t : Port) : Port := { t.eraseKeys with asking := none, failed := true }

/-- The bring-up of a port begins (R334): the first of the HN7's own requests leaves. -/
def Port.bringUp (t : Port) : Port := { t.ask .getVersion with asking := some 0, failed := false }

/-- The peer's response to the HN7's own request of a bring-up (R334; log 15): the next request leaves, or after the last the session is
established; CHALLENGE_AUTH attests the peer's device id. A response that is not as it must be, or a refusal, ends the bring-up. -/
def State.takeResponse (s : State) (port : Nat) (m : Option SpdmMsg) : State :=
  match s.port? port with
  | some t =>
    match (if t.st = .unlocked then t.asking else none) with
    | some k =>
      match bringUpAsks[k]?, m with
      | some asked, some m =>
        if responseOk asked m then
          let t := if asked = .challenge then { t with attested := m.dev % 2^18 } else t
          match bringUpAsks[k + 1]? with
          | some next => s.modPort port fun _ => { t.ask next with asking := some (k + 1) }
          | none => { s with nextId := s.nextId + 1 }.modPort port fun _ => t.establish s.nextId t.attested
        else s.modPort port Port.bringUpFailed
      | _, _ => s.modPort port Port.bringUpFailed
    | none => s
  | none => s

/-! ### The end of a ck -/

/-- The groups that a key has sent when the HN7 starts a rotation, long before 2^32 (R336; log 68). -/
def rotateAt : Nat := 2^31

/-- A port at the end of a ck: it starts a rotation that is due (R336), and when no packet waits for it, its group closes (R332). -/
def State.portTick (s : State) (k : Nat) : State :=
  match s.port? k with
  | some t =>
    if t.st = .run then
      let t := if rotateAt ≤ t.groups ∧ t.mayRotate = true then (t.ask .keyUpdate).rotate else t
      let t := if (s.waitingAt k).isEmpty then t.closeGroups true t.forming.length else t
      s.modPort k fun _ => t
    else s
  | none => s

/-- The ports at the end of a ck. -/
def State.portsTick (s : State) : State := (List.range s.fabric.ports.length).foldl State.portTick s

end Sys2Proof.Machine
end

