-- ==== Sys2Proof/Machine/LoadStore.lean ====
section
/-! DEFINITION. Loads, stores and atomics of the control core (R86 to R88, R100, R101). -/

namespace Sys2Proof.Machine

/-- The address of a C-M instruction (R100). -/
def memAddr (c : Ctl) (a : Reg) (i : BitVec 14) : Word := c.reg a + sext i

/-- A load of n bytes, `ext` giving the register's value (R100): it is checked before any byte moves (R87). -/
def loadReg (s : State) (d a : Reg) (i : BitVec 14) (n : Nat) (ext : List Byte → Word) :
    Host.Outcome State Fault Refusal :=
  let c := s.running
  let t := memAddr c a i
  match c.accessCheck false t n n with
  | some (code, tval) => trapAt s c code tval
  | none =>
    match s.ctlPoison c t n with
    | some u => trapAt s c 7 u
    | none => complete s c (c.setReg d (ext (s.ctlRead c t n)))

/-- A store of the n low bytes of a register (R100). -/
def storeReg (s : State) (r a : Reg) (i : BitVec 14) (n : Nat) : Host.Outcome State Fault Refusal :=
  let c := s.running
  let t := memAddr c a i
  match c.accessCheck true t n n with
  | some (code, tval) => trapAt s c code tval
  | none =>
    let (s', c') := s.ctlWrite c t (leBytes n (c.reg r).toNat)
    completeIn s s' c c'

/-- Sign extension of n loaded bytes. -/
def signedLoad (n : Nat) (bs : List Byte) : Word := BitVec.ofInt 64 (BitVec.ofNat (8 * n) (leNat bs)).toInt

/-- LDB (R100). -/
def execLdb (d a : Reg) (i : BitVec 14) (s : State) : Host.Outcome State Fault Refusal := loadReg s d a i 1 (signedLoad 1)

/-- LDBU (R100). -/
def execLdbu (d a : Reg) (i : BitVec 14) (s : State) : Host.Outcome State Fault Refusal := loadReg s d a i 1 leWord

/-- LDH (R100). -/
def execLdh (d a : Reg) (i : BitVec 14) (s : State) : Host.Outcome State Fault Refusal := loadReg s d a i 2 (signedLoad 2)

/-- LDHU (R100). -/
def execLdhu (d a : Reg) (i : BitVec 14) (s : State) : Host.Outcome State Fault Refusal := loadReg s d a i 2 leWord

/-- LDW (R100). -/
def execLdw (d a : Reg) (i : BitVec 14) (s : State) : Host.Outcome State Fault Refusal := loadReg s d a i 4 (signedLoad 4)

/-- LDD (R100). -/
def execLdd (d a : Reg) (i : BitVec 14) (s : State) : Host.Outcome State Fault Refusal := loadReg s d a i 8 leWord

/-- STB (R100). -/
def execStb (r a : Reg) (i : BitVec 14) (s : State) : Host.Outcome State Fault Refusal := storeReg s r a i 1

/-- STH (R100). -/
def execSth (r a : Reg) (i : BitVec 14) (s : State) : Host.Outcome State Fault Refusal := storeReg s r a i 2

/-- STW (R100). -/
def execStw (r a : Reg) (i : BitVec 14) (s : State) : Host.Outcome State Fault Refusal := storeReg s r a i 4

/-- STD (R100). -/
def execStd (r a : Reg) (i : BitVec 14) (s : State) : Host.Outcome State Fault Refusal := storeReg s r a i 8

/-- LDV (R100): the address is computed before any register is written, and every access is checked first (R87). The
reads are made in one step (log 6). -/
def execLdv (d a : Reg) (w : Width) (i : BitVec 14) (s : State) : Host.Outcome State Fault Refusal :=
  let c := s.running
  let t := memAddr c a i
  match c.accessCheck false t (8 * w.size) 8 with
  | some (code, tval) => trapAt s c code tval
  | none =>
    match s.ctlPoison c t (8 * w.size) with
    | some u => trapAt s c 7 u
    | none => complete s c (c.setGroup d ((List.range w.size).map fun k => leWord (s.ctlRead c (t + BitVec.ofNat 64 (8 * k)) 8)))

/-- STV (R100). -/
def execStv (r a : Reg) (w : Width) (i : BitVec 14) (s : State) : Host.Outcome State Fault Refusal :=
  let c := s.running
  let t := memAddr c a i
  match c.accessCheck true t (8 * w.size) 8 with
  | some (code, tval) => trapAt s c code tval
  | none =>
    let (s', c') := s.ctlWriteWords c t (c.group r w.size)
    completeIn s s' c c'

/-- An atomic on the 8 aligned bytes at ga (R101): `upd old` is the new contents, if any. The buffered stores are drained first, in their
order: an atomic orders every earlier store before a later load (R219). -/
def atomic (s : State) (d a : Reg) (upd : Word → Option Word) : Host.Outcome State Fault Refusal :=
  let c := s.running
  let t := c.reg a
  match c.accessCheck true t 8 8 with
  | some (code, tval) => trapAt s c code tval
  | none =>
    match s.ctlPoison c t 8 with
    | some u => trapAt s c 7 u
    | none =>
      let key := coreKey c.core t.toNat
      let (s1, c1) := s.drain c
      let old := leWord (s1.read key 8)
      let s2 := match upd old with
        | some v => s1.writeWord key v
        | none => s1
      completeIn s s2 c (c1.setReg d old)

/-- AMADD (R101). -/
def execAmadd (d a b : Reg) (s : State) : Host.Outcome State Fault Refusal :=
  atomic s d a fun old => some (old + s.running.reg b)

/-- AMSWP (R101). -/
def execAmswp (d a b : Reg) (s : State) : Host.Outcome State Fault Refusal := atomic s d a fun _ => some (s.running.reg b)

/-- AMCAS (R101): gd is read before it is written. -/
def execAmcas (d a b : Reg) (s : State) : Host.Outcome State Fault Refusal :=
  atomic s d a fun old => if old = s.running.reg d then some (s.running.reg b) else none

end Sys2Proof.Machine
end

