-- ==== Sys2Proof/Machine/Manage.lean ====
section
/-! DEFINITION. The host and management: user queues (R355 to R358), the BARs (R354), management requests (R360, R361), boot (R362) and
loading an image (R351). -/

namespace Sys2Proof.Machine

/-- Whether management runs (R362). -/
def State.booted (s : State) : Bool := s.boot.phase == .running

/-! ### User queues -/

/-- Whether sequence number a is later than b (R356). -/
def later (a b : BitVec 32) : Bool := decide (1 ≤ (a - b).toNat ∧ (a - b).toNat < 2^31)

/-- The control block of a queue that has not been created (R356, R361). -/
def UserQueue.blank (q : Nat) : UserQueue :=
  { q := q, rjwhy := 0, lrej := 0, slot := 64, prio := 0, pend := false, size := 0, base := 0, dbell := 0, lcmp := 0, lacc := 0,
    completed := [], stopped := false, since := 0 }

/-- A control block as the host reads it (R356). -/
def UserQueue.word (u : UserQueue) : BitVec 512 :=
  BitVec.ofNat 512 (u.rjwhy % 2^8 * 2^232 + u.lrej.toNat * 2^200 + u.slot % 2^8 * 2^192 + u.prio % 2^2 * 2^190 + u.pend.toNat * 2^189
    + u.size % 2^5 * 2^184 + u.base % 2^48 * 2^128 + u.dbell.toNat * 2^96 + u.lcmp.toNat * 2^64 + u.lacc.toNat * 2^32)

/-- A queue's control block. -/
def State.queue (s : State) (q : Nat) : UserQueue := (s.host.queues.find? fun u => u.q == q).getD (UserQueue.blank q)

/-- Whether a queue has been created (R361). -/
def UserQueue.made (u : UserQueue) : Bool := u.size != 0

/-- Write a queue's control block. -/
def State.setQueue (s : State) (u : UserQueue) : State :=
  s.modHost fun h => { h with queues := upsert (fun v => v.q == u.q) u h.queues }

/-- A doorbell rings (R354, R357, R358, R361): a queue that has stopped goes on, and the entry that it now has waits from this ck. -/
def State.ring (s : State) (q : Nat) (v : BitVec 64) : State :=
  if s.booted = false ∨ 4096 ≤ q then s
  else
    let u := s.queue q
    let n := v.extractLsb' 0 32
    let dbell := if u.made ∧ later n u.dbell = true then n else u.dbell
    s.setQueue { u with
      dbell := dbell
      pend := u.pend || decide (64 ≤ u.slot)
      stopped := false
      since := if later u.dbell u.lacc ∧ u.stopped = false then u.since else s.ck }

/-- DOORBELL (R354, R357, R361). -/
def execDoorbell (q : Nat) (v : BitVec 64) (s : State) : Host.Outcome State Fault Refusal := finish s (s.ring q v)

/-- The address of the entry of a sequence number (R356). -/
def UserQueue.entry (u : UserQueue) (n : BitVec 32) : Nat := u.base + 64 * (n.toNat % 2^u.size)

/-- Why an entry is rejected (R356, R358): 0, or the lowest code of 1 to 3. -/
def entryWhy (q : Nat) (e : BitVec 512) : Nat :=
  let addr := (e.extractLsb' 64 48).toNat
  let kind := (e.extractLsb' 32 8).toNat
  if (e.extractLsb' 112 400).toNat ≠ 0 ∨ (e.extractLsb' 40 24).toNat ≠ 0 then 1
  else if 2 ≤ kind ∨ (kind = 1 ∧ q ≠ 0) then 2
  else if addr % 64 ≠ 0 ∨ assigned addr 1 = false then 3
  else 0

/-- Whether a mapped queue has an entry to look at: a doorbell names it, and the queue has not stopped (R358). -/
def UserQueue.due (u : UserQueue) : Bool := u.made && decide (u.slot < 64) && later u.dbell u.lacc && !u.stopped

/-- The entry after LACC in a queue's ring (R356). -/
def State.nextEntry (s : State) (u : UserQueue) : BitVec 512 := BitVec.ofNat 512 (s.readNat (u.entry (u.lacc + 1)) 64)

/-- The effective level of a queue (R358, in the manner of R175): its priority, and one for each full window of 4,096 ck, the reset value of
k.agewin, that its next entry has waited, up to 3 (log 79). -/
def State.queueLevel (s : State) (u : UserQueue) : Nat := min 3 (u.prio + (s.ck - u.since) / 4096)

/-- Whether a queue comes before another: by the higher level, then the earlier wait, then the lower number (R175, R358; log 79). -/
def State.queueBefore (s : State) (a b : UserQueue) : Bool :=
  decide (s.queueLevel b < s.queueLevel a)
    || (s.queueLevel a == s.queueLevel b && (decide (a.since < b.since) || (a.since == b.since && decide (a.q < b.q))))

/-- Whether it is a queue's turn to have its next entry looked at. -/
def State.queueFirst (s : State) (u : UserQueue) : Bool := !(s.host.queues.any fun v => v.q != u.q && v.due && s.queueBefore v u)

/-- QUEUE_ENTRY_ACCEPT (R355, R358): an entry with another SSEQ stops its queue until the next doorbell. -/
def execQueueEntryAccept (q : Nat) (s : State) : Host.Outcome State Fault Refusal :=
  let u := s.queue q
  if u.due = false ∨ s.queueFirst u = false then finish s s
  else
    let e := s.nextEntry u
    if e.extractLsb' 0 32 ≠ u.lacc + 1 then finish s (s.setQueue { u with stopped := true })
    else
    let seq := (u.lacc + 1).toNat
    let addr := (e.extractLsb' 64 48).toNat
    let w := entryWhy q e
    let s' := s.setQueue { u with lacc := u.lacc + 1, since := s.ck }
    if w ≠ 0 then finish s ((s'.modQueue q fun u => { u with lrej := BitVec.ofNat 32 seq, rjwhy := w }).completeEntry (some (q, seq)))
    else if (e.extractLsb' 32 8).toNat = 1 then
      finish s (s'.modHost fun h => { h with requests := h.requests ++ [(addr, some (q, seq))] })
    else finish s (s'.modHost fun h => { h with launches := h.launches ++ [{
      places := runPlaces addr, parent := none, ended := false, partMask := BitVec.allOnes 384, cap := u.prio, queue := some (q, seq) }] })

/-- QUEUE_SLOT_MAP (R358): slot 64 unmaps the queue. -/
def execQueueSlotMap (q : Nat) (slot : Nat) (s : State) : Host.Outcome State Fault Refusal :=
  let u := s.queue q
  if s.booted = false ∨ u.made = false then finish s s
  else if slot = 64 then finish s (s.setQueue { u with slot := 64 })
  else if slot < 64 ∧ (s.host.queues.any fun v => v.q != q && v.slot == slot) = false then
    finish s (s.setQueue { u with slot := slot, pend := false })
  else finish s s

/-! ### The BARs (R354) -/

/-- Where the control block of a queue stands in BAR0. -/
def blockOffset (q : Nat) : Nat := 64 * q

/-- Where the doorbell of a queue stands in BAR0. -/
def doorbellOffset (q : Nat) : Nat := 0x40000 + 8 * q

/-- The queue whose doorbell stands at an offset of BAR0. -/
def doorbellAt (off : Nat) : Option Nat :=
  if doorbellOffset 0 ≤ off ∧ off < doorbellOffset 4096 ∧ off % 8 = 0 then some ((off - doorbellOffset 0) / 8) else none

/-- What the host reads of n bytes of BAR0's control blocks: the current value of each field. -/
def State.bar0Read (s : State) (off n : Nat) : List Byte :=
  (List.range n).map fun i => BitVec.ofNat 8 ((s.queue ((off + i) / 64)).word.toNat / 2^(8 * ((off + i) % 64)))

/-- BAR0_OTHER_WRITE (R354): discarded; a write that does stand at a doorbell rings it. -/
def execBar0OtherWrite (off : Nat) (v : BitVec 64) (s : State) : Host.Outcome State Fault Refusal :=
  match doorbellAt off with
  | some q => finish s (s.ring q v)
  | none => finish s s

/-- BAR2_ACCESS (R354): the host writes bytes through the window, or reads where there are none. Of a write to an address outside every
assigned range (R198) the rules say nothing: it stores nothing (log 80). -/
def execBar2Access (off : Nat) (data : List (BitVec 8)) (s : State) : Host.Outcome State Fault Refusal :=
  let a := s.host.bar2 + off
  if s.booted = false ∨ 2^36 < off + data.length ∨ assigned a data.length = false then finish s s else finish s (s.write a data)

/-! ### Management requests (R361) -/

/-- A management request as read: OP, the arguments, and whether the reserved word is 0. -/
structure MgmtReq where
  addr : Nat
  entry : Option (Nat × Nat)
  op : Nat
  zero : Bool
  args : List Word

/-- The oldest management request (R361: they are carried out in order). -/
def State.request (s : State) : Option MgmtReq :=
  match s.host.requests with
  | [] => none
  | (a, q) :: _ => some
      { addr := a, entry := q, op := s.readNat a 4, zero := s.readNat (a + 4) 4 == 0,
        args := (List.range 6).map fun i => s.readWord (a + 16 + 8 * i) }

/-- Argument i. -/
def MgmtReq.arg (r : MgmtReq) (i : Nat) : Word := r.args.getD i 0

/-- A field of an argument. -/
def MgmtReq.field (r : MgmtReq) (i lo n : Nat) : Nat := ((r.arg i).extractLsb' lo n).toNat

/-- The first argument from k on that is not 0. -/
def MgmtReq.unused (r : MgmtReq) (k : Nat) : Option Nat := (List.range 6).find? fun i => decide (k ≤ i) && r.arg i != 0

/-- End a request: STATUS is written last, and the entry completes (R358, R361). -/
def State.endRequest (s : State) (r : MgmtReq) (reason detail : Nat) : State :=
  let s := s.writeWord (r.addr + 8) (BitVec.ofNat 64 (2^63 + reason * 4096 + detail % 4096))
  (s.modHost fun h => { h with requests := h.requests.tail }).completeEntry r.entry

/-- The service of the management complex that carries out an OP (R360, R361); those of the host's own windows and queues are of none. -/
def opService (op : Nat) : Option Service :=
  if op = 1 ∨ op = 2 then some .streams
  else if op = 3 ∨ op = 4 then some .pages
  else if op = 5 ∨ op = 6 then some .dolz
  else if op = 7 ∨ op = 8 then some .routes
  else none

/-- The mould of the requests: the oldest one, where `mine` says that it is this event's; an unknown OP, and one whose service is fenced, is
refused by any of them (R360, R361; log 80). `run` gives the machine with the reason and detail, 0 for a request carried out. -/
def requestIn (s : State) (mine : MgmtReq → Bool) (run : MgmtReq → State × Nat × Nat) : Host.Outcome State Fault Refusal :=
  match s.request with
  | none => finish s s
  | some r =>
    if s.booted = false then finish s s
    else if r.op = 0 ∨ 10 < r.op ∨ r.zero = false ∨ (opService r.op).all s.serves = false then finish s (s.endRequest r 5 0)
    else if mine r = false then finish s s
    else
      let o := run r
      finish s (o.1.endRequest r o.2.1 o.2.2)

/-- What comes of a request that a refusal leaves without effect. -/
def State.orRefused (s : State) : (Nat × Nat) ⊕ State → State × Nat × Nat
  | .inl (k, d) => (s, k, d)
  | .inr t => (t, 0, 0)

/-- A request that is refused or carried out. -/
def requestWith (s : State) (mine : MgmtReq → Bool) (run : MgmtReq → (Nat × Nat) ⊕ State) : Host.Outcome State Fault Refusal :=
  requestIn s mine fun r => s.orRefused (run r)

/-- The links between a core and the switches above it, up or down (log 27): core to quad, quad to cluster, cluster to die. -/
def coreLinks (core : Nat) : List Nat := [2 * core, 1000 + 2 * (core / 4), 2000 + 2 * (core / 16)]

/-- The link of a die to a hub. -/
def hubLink (die hub : Nat) : Nat := 3000 + 2 * (2 * die + hub)

/-- The down links that lead from a die's switch to a memory or core: 3 levels for a core, 2 for a quad bank, 1 for a cluster bank. -/
def downLinks (core levels : Nat) : List Nat := ((coreLinks core).map (· + 1)).reverse.take levels

/-- The links of a path from a core to the place of another core's switches, at a number of levels below its die (R212, R324). -/
def treePath (core target levels : Nat) : List Nat :=
  let up := coreLinks core
  if core / 64 ≠ target / 64 then
    let h := (core / 64 + target / 64) % 2
    up ++ [hubLink (core / 64) h, hubLink (target / 64) h + 1] ++ downLinks target levels
  else if core / 16 ≠ target / 16 ∨ levels = 0 then up ++ downLinks target levels
  else if core / 4 ≠ target / 4 ∨ levels = 1 then up.take 2 ++ (downLinks target levels).drop 1
  else up.take 1 ++ (downLinks target levels).drop 2

/-- The links of a stream (R213, R280, R324): both directions for a memory, whose replies travel on the stream too. -/
def streamLinks (core : Nat) (target : Word) : List Nat :=
  if target.getLsbD 63 then treePath core ((target.extractLsb' 0 9).toNat) 3
  else
    let out := match bankOf (target.extractLsb' 0 48).toNat with
      | some (.quad q) => treePath core (4 * q) 2
      | some (.cluster k) => treePath core (16 * k) 1
      | some (.die d) => treePath core (64 * d) 0
      | some (.hub h) => coreLinks core ++ [hubLink (core / 64) h]
      | some (.hbm t) => coreLinks core ++ [hubLink (core / 64) (t / 4)]
      | none => []
    out ++ out.map fun l => if l % 2 = 0 then l + 1 else l - 1

/-- The entries that a stream may take along a path: those that on each link are free or its own already, its own first, since a second path
of a stream shares them (R213; log 27). -/
def State.commonEntries (s : State) (mine : Stream → Bool) (links : List Nat) : List Nat :=
  let owns (t : Stream) (l e : Nat) : Bool := t.links.contains l && t.entries.contains e
  let free := (List.range 16).filter fun e => links.all fun l => !(s.host.streams.any fun t => owns t l e && !mine t)
  let own (e : Nat) : Bool := links.any fun l => s.host.streams.any fun t => owns t l e && mine t
  free.filter own ++ free.filter fun e => !own e

/-- What a stream's ARG1 reaches (R361): a core, or the memory of an address. -/
def streamTarget (w : Word) : Nat ⊕ Option Bank :=
  if w.getLsbD 63 then .inl (w.extractLsb' 0 9).toNat else .inr (bankOf (w.extractLsb' 0 48).toNat)

/-- The first argument of a stream request that breaks its limits (R361): ARG0 and ARG1 are the same for both. -/
def MgmtReq.streamBad (r : MgmtReq) (adm : Bool) : Option Nat :=
  let byLid := (r.arg 0).getLsbD 25
  let core := (r.arg 1).getLsbD 63
  if r.field 0 26 38 ≠ 0 ∨ 383 < r.field 0 8 9 ∨ r.field 0 17 4 = 0 ∨ r.field 0 21 4 = 0 then some 0
  else if (core = true ∧ (r.field 1 9 54 ≠ 0 ∨ 383 < r.field 1 0 9))
      ∨ (core = false ∧ (r.field 1 48 15 ≠ 0 ∨ assigned (r.field 1 0 48) 1 = false)) then some 1
  else if adm ∧ byLid then (if r.field 2 32 32 ≠ 0 then some 2 else r.unused 3)
  else r.unused 2

/-- Whether a context has a part on a core (R361 reason 1). -/
def State.hasPart (s : State) (ctx core : Nat) : Bool := (s.cctx? core ctx).isSome

/-- ADMIT_STREAM (R213, R280, R361 OP 1). -/
def execAdmitStream (s : State) : Host.Outcome State Fault Refusal :=
  requestWith s (fun r => r.op == 1) fun r =>
    let ctx := r.field 0 0 8
    let core := r.field 0 8 9
    let id := r.field 0 17 4
    let byLid := (r.arg 0).getLsbD 25
    match r.streamBad true with
    | some i => .inl (5, i)
    | none =>
      if byLid = false ∧ s.hasPart ctx core = false then .inl (1, 0)
      else
        let lid : Option Nat := if byLid then some (r.field 2 0 32) else none
        if s.host.streams.any fun t => t.core == core && t.id == id
            && (streamTarget t.target == streamTarget (r.arg 1) || t.byLid != lid || (!byLid && t.ctx != ctx)) then .inl (2, 0)
        else
          let links := streamLinks core (r.arg 1)
          let free := s.commonEntries (fun t => t.core == core && t.id == id) links
          if free.length < r.field 0 21 4 then .inl (3, 0)
          else .inr (s.modHost fun h => { h with streams := h.streams ++ [{
            ctx := ctx, core := core, id := id, target := r.arg 1, links := links, entries := free.take (r.field 0 21 4), byLid := lid }] })

/-- WITHDRAW_STREAM (R361 OP 2): of the named context's streams, or of those that await their launch. -/
def execWithdrawStream (s : State) : Host.Outcome State Fault Refusal :=
  requestWith s (fun r => r.op == 2) fun r =>
    match r.streamBad false with
    | some i => .inl (5, i)
    | none =>
      if (r.arg 0).getLsbD 25 = false ∧ s.hasPart (r.field 0 0 8) (r.field 0 8 9) = false then .inl (1, 0)
      else .inr (s.modHost fun h => { h with streams := h.streams.filter fun t =>
        !(t.core == r.field 0 8 9 && t.id == r.field 0 17 4 && streamTarget t.target == streamTarget (r.arg 1)
          && (if (r.arg 0).getLsbD 25 then t.byLid.isSome else t.byLid.isNone && t.ctx == r.field 0 0 8)) })

/-- The control core that a context has on a core: on the core itself, or in the part saved from it (R292). -/
def State.ownCtl (s : State) (core ctx : Nat) : Option Ctl :=
  match (s.cctx? core ctx).bind (·.part) with
  | some p => p.ctl
  | none => if (s.ctl core).owner = some ctx then some (s.ctl core) else none

/-- Where the bytes of a context's private SRAM on a core are: in the SRAM, or in the save object (R291). -/
def State.sramOf (s : State) (core ctx : Nat) : Nat :=
  if (s.cctx? core ctx).any CoreCtx.saved then (s.saveBase? ctx core).getD 0 + 122880 else coreKey core 0

/-- The page request of OP 3 and 4: the control core and the page, or the reason (R361); a part without the control core has no page there
(log 98). -/
def State.pageRequest (s : State) (r : MgmtReq) : (Nat × Nat) ⊕ (Ctl × Nat) :=
  if r.field 0 22 42 ≠ 0 ∨ 383 < r.field 0 8 9 then .inl (5, 0)
  else match r.unused 1 with
    | some i => .inl (5, i)
    | none => match s.ownCtl (r.field 0 8 9) (r.field 0 0 8) with
      | some c => .inr (c, r.field 0 17 5)
      | none => .inl (1, 0)

/-- The execute permissions of a control core with a page's set or cleared. -/
def Ctl.setExec (c : Ctl) (page : Nat) (b : Bool) : Ctl :=
  { c with exec := if b then c.exec ||| BitVec.twoPow 32 page else c.exec &&& ~~~(BitVec.twoPow 32 page) }

/-- Write back the control core that a context has on a core. -/
def State.setOwnCtl (s : State) (ctx : Nat) (c : Ctl) : State :=
  if (s.cctx? c.core ctx).any CoreCtx.saved then
    s.modCctx c.core ctx fun y => { y with part := y.part.map fun p => { p with ctl := some c } }
  else s.setCtl c

/-- MAKE_PAGE_EXECUTABLE (R60, R361 OP 3). -/
def execMakePageExecutable (s : State) : Host.Outcome State Fault Refusal :=
  requestWith s (fun r => r.op == 3) fun r =>
    match s.pageRequest r with
    | .inl q => .inl q
    | .inr (c, p) =>
      if c.exec.getLsbD p then .inr s
      else match firstIllegal 0 (s.read (s.sramOf c.core (r.field 0 0 8) + 4096 * p) 4096) with
        | some o => .inl (4, o)
        | none => .inr (s.setOwnCtl (r.field 0 0 8) (c.setExec p true))

/-- REMOVE_EXECUTE (R60, R361 OP 4). -/
def execRemoveExecute (s : State) : Host.Outcome State Fault Refusal :=
  requestWith s (fun r => r.op == 4) fun r =>
    match s.pageRequest r with
    | .inl q => .inl q
    | .inr (c, p) => .inr (s.setOwnCtl (r.field 0 0 8) (c.setExec p false))

/-- The context request of OP 5 and 6; detached, `dolz` holds the context no more (R193, R321). -/
def State.dolzRequest (s : State) (r : MgmtReq) (b : Bool) : (Nat × Nat) ⊕ State :=
  if r.field 0 8 56 ≠ 0 then .inl (5, 0)
  else match r.unused 1 with
    | some i => .inl (5, i)
    | none =>
      if (s.ctx? (r.field 0 0 8)).isNone then .inl (1, 0)
      else if b then .inr (s.modCtx (r.field 0 0 8) fun x => { x with dolz := true })
      else .inr ((s.letGo (r.field 0 0 8)).modCtx (r.field 0 0 8) fun x => { x with
        dolz := false, watch := { x.watch with onFault := false } })

/-- ATTACH_DOLZ (R317, R361 OP 5). -/
def execAttachDolz (s : State) : Host.Outcome State Fault Refusal := requestWith s (fun r => r.op == 5) fun r => s.dolzRequest r true

/-- DETACH_DOLZ (R361 OP 6). -/
def execDetachDolz (s : State) : Host.Outcome State Fault Refusal := requestWith s (fun r => r.op == 6) fun r => s.dolzRequest r false

/-- Whether a route entry is accepted (R326). -/
def routeOk (e : BitVec 32) : Bool :=
  let hops := (e.extractLsb' 10 4).toNat
  decide (1 ≤ hops ∧ hops ≤ 8) && decide ((e.extractLsb' 0 5).toNat ≤ 17) && decide ((e.extractLsb' 5 5).toNat ≤ 17)

/-- Write one route entry (R326, R330): at once, or once the destination's packets are all acknowledged. -/
def State.setRoute (s : State) (dev : Nat) (e : BitVec 32) : State :=
  let e := e &&& 0x80003FFF
  let busy := s.fabric.unacked.any fun q => q.1 == dev && q.2 != 0
  s.modFabric fun g =>
    if busy then { g with routePend := upsert (fun q => q.1 == dev) (dev, e) g.routePend }
    else { g with routes := upsert (fun q => q.1 == dev) (dev, e) g.routes }

/-- Write route entries in order. -/
def State.setRoutes (s : State) (dev : Nat) (es : List (BitVec 32)) : State :=
  es.zipIdx.foldl (fun s q => s.setRoute (dev + q.2) q.1) s

/-- WRITE_ROUTE_ENTRIES (R326, R330, R361 OP 7): a refused entry leaves every entry unchanged (log 32). -/
def execWriteRouteEntries (s : State) : Host.Outcome State Fault Refusal :=
  requestWith s (fun r => r.op == 7) fun r =>
    let n := r.field 0 18 13
    let a := (r.arg 1).toNat
    if r.field 0 31 33 ≠ 0 ∨ n = 0 ∨ 4096 < n ∨ 2^18 < r.field 0 0 18 + n then .inl (5, 0)
    else if a % 8 ≠ 0 ∨ assigned a (4 * n) = false then .inl (5, 1)
    else match r.unused 2 with
      | some i => .inl (5, i)
      | none =>
        let es := (List.range n).map fun i => BitVec.ofNat 32 (s.readNat (a + 4 * i) 4)
        match es.findIdx? fun e => !routeOk e with
        | some i => .inl (6, i)
        | none => .inr (s.setRoutes (r.field 0 0 18) es)

/-- The code of a port's state in a STATUS detail (log 30). -/
def PortState.code : PortState → Nat
  | .unlocked => 0
  | .locked => 1
  | .run => 2
  | .error => 3

/-- The port of a port command, if its arguments are legal (R361 OP 8). -/
def MgmtReq.portBad (r : MgmtReq) : Option Nat :=
  if r.field 0 8 56 ≠ 0 ∨ 17 < r.field 0 0 5 ∨ 2 < r.field 0 5 3 then some 0
  else if r.field 1 18 46 ≠ 0 then some 1
  else r.unused 2

/-- The mould of the port commands. -/
def portWith (s : State) (cmd : Nat) (run : MgmtReq → Nat → Port → State × Nat × Nat) : Host.Outcome State Fault Refusal :=
  requestIn s (fun r => r.op == 8 && (r.field 0 5 3 == cmd || r.portBad.isSome)) fun r =>
    match r.portBad, s.port? (r.field 0 0 5) with
    | some i, _ => (s, 5, i)
    | none, some t => run r (r.field 0 0 5) t
    | none, none => (s, 5, 0)

/-- The port that the oldest request brings up while no session stands on it and its bring-up has not failed: the request is not carried out
until one of the two (R334, R361). -/
def State.bringingUp (s : State) : Option (Nat × Port) :=
  match s.request with
  | some r =>
    if r.zero ∧ r.op = 8 ∧ r.field 0 5 3 = 0 ∧ r.portBad = none ∧ s.booted = true ∧ s.serves .routes = true then
      ((s.port? (r.field 0 0 5)).filter fun t => t.st == .unlocked && !(t.spdm == .established && t.keys) && !t.failed).map fun t => (r.field 0 0 5, t)
    else none
  | none => none

/-- PORT_BRING_UP (R334, R335, R361): the HN7 makes its requests of the session, one after the other's response, and once the session is
established and its keys are installed locks the port; a bring-up that fails ends the request. On a port that is not unlocked it is a write
to a locked configuration, which sends the port to ERROR. -/
def execPortBringUp (s : State) : Host.Outcome State Fault Refusal :=
  match s.bringingUp with
  | some (p, t) => if t.asking.isSome then finish s s else finish s (s.modPort p Port.bringUp)
  | none =>
    portWith s 0 fun r p t =>
      if t.st = .error then (s, 8, t.st.code)
      else if t.st ≠ .unlocked then (s.portError p, 8, t.st.code)
      else if t.failed then (s.modPort p fun t => { t with failed := false }, 7, 0)
      else (s.modPort p fun t => { t with st := .locked, peer := r.field 1 0 18, enable := true }, 0, 0)

/-- PORT_START (R335, R361): not while the peer is not locked; a peer that attested another device id sends the port to ERROR. -/
def execPortStart (s : State) : Host.Outcome State Fault Refusal :=
  requestWith s (fun r => r.op == 8 && r.field 0 5 3 == 1 && r.portBad.isNone) fun r =>
    match s.port? (r.field 0 0 5) with
    | none => .inl (5, 0)
    | some t =>
      if t.st ≠ .locked ∨ t.peerLocked = false then .inl (8, t.st.code)
      else if t.attested = t.peer then .inr (s.modPort (r.field 0 0 5) fun t => { t with st := .run })
      else .inr (s.portError (r.field 0 0 5))

/-- Whether the oldest request stops a port of which an end has flits not acknowledged yet: this one's, or those that it has asked the other to
send again (R333, R335). -/
def State.stopWaits (s : State) : Bool :=
  match s.request with
  | some r => r.zero && s.serves .routes && r.op == 8 && r.field 0 5 3 == 2 && r.portBad.isNone && (s.port? (r.field 0 0 5)).any fun t => t.st == .run && !(t.replay.isEmpty && t.forming.isEmpty && t.discardTo.isNone)
  | none => false

/-- PORT_STOP (R335, R361). -/
def execPortStop (s : State) : Host.Outcome State Fault Refusal :=
  if s.stopWaits then finish s s
  else requestWith s (fun r => r.op == 8 && r.field 0 5 3 == 2 && r.portBad.isNone) fun r =>
    match s.port? (r.field 0 0 5) with
    | none => .inl (5, 0)
    | some t =>
      if t.st = .unlocked then .inl (8, t.st.code)
      else .inr (s.modPort (r.field 0 0 5) fun t => { t.discard.eraseKeys with st := .unlocked, enable := false, failRow := 0, retrains := [] })

/-- MOVE_BAR2_WINDOW (R354, R361 OP 9). -/
def execMoveBar2Window (s : State) : Host.Outcome State Fault Refusal :=
  requestWith s (fun r => r.op == 9) fun r =>
    let a := (r.arg 0).toNat
    if a % 2^36 ≠ 0 ∨ 2^48 ≤ a then .inl (5, 0)
    else match r.unused 1 with
      | some i => .inl (5, i)
      | none => .inr (s.modHost fun h => { h with bar2 := a })

/-- The first argument of OP 10 that breaks its limits (R356, R361). -/
def MgmtReq.queueBad (r : MgmtReq) : Option Nat :=
  let size := r.field 0 12 5
  let base := (r.arg 1).toNat
  if r.field 0 19 45 ≠ 0 ∨ r.field 0 0 12 = 0 ∨ (size ≠ 0 ∧ (size < 4 ∨ 16 < size)) then some 0
  else if size ≠ 0 then (if base % 64 ≠ 0 ∨ assigned base (64 * 2^size) = false then some 1 else r.unused 2)
  else r.unused 1

/-- CREATE_USER_QUEUE (R356, R361 OP 10). -/
def execCreateUserQueue (s : State) : Host.Outcome State Fault Refusal :=
  requestWith s (fun r => r.op == 10 && (r.field 0 12 5 != 0 || r.queueBad.isSome)) fun r =>
    match r.queueBad with
    | some i => .inl (5, i)
    | none =>
      let u := s.queue (r.field 0 0 12)
      if u.made then .inl (8, u.slot)
      else .inr (s.setQueue { UserQueue.blank u.q with
        size := r.field 0 12 5, prio := r.field 0 17 2, base := (r.arg 1).toNat, pend := u.pend })

/-- REMOVE_USER_QUEUE (R361 OP 10 with SIZE 0): not while accepted entries are outstanding. -/
def execRemoveUserQueue (s : State) : Host.Outcome State Fault Refusal :=
  requestWith s (fun r => r.op == 10 && r.field 0 12 5 == 0 && r.queueBad.isNone) fun r =>
    let u := s.queue (r.field 0 0 12)
    if u.made = false ∨ u.lacc ≠ u.lcmp then .inl (8, u.slot) else .inr (s.setQueue (UserQueue.blank u.q))

/-- MANAGEMENT_SETS_WINDOWS (R159): within the limits of creation. -/
def execManagementSetsWindows (ctx : Nat) (agewin : Nat) (dlwin : Nat) (s : State) : Host.Outcome State Fault Refusal :=
  if 64 ≤ agewin ∧ agewin ≤ 2^24 ∧ 2^12 ≤ dlwin ∧ dlwin ≤ 2^40 then
    finish s (s.modCtx ctx fun x => { x with agewin := agewin, dlwin := dlwin })
  else finish s s

/-! ### Boot (R362) -/

/-- An image that boots: signature and version (R362 step 3). -/
def Boot.accepts (b : Boot) (i : FlashImage) : Bool := Config.imageSigOk i.bytes && decide (b.rollback ≤ i.version)

/-- The image that boots: slot A, else slot B. -/
def Boot.image (b : Boot) : Option FlashImage :=
  [0, 1].findSome? fun k => match b.slots.find? fun q => q.1 == k with
    | some q => if b.accepts q.2 then some q.2 else none
    | none => none

/-- Queue 0 as the management OS creates it (R360, R361; log 31). -/
def queueZero : UserQueue := { UserQueue.blank 0 with size := 4, prio := 3, base := 0x800000000000, slot := 0 }

/-- A measurement register extended by a digest (R362; log 81): the hash of its old value with the digest after it. -/
def extended (old digest : BitVec 256) : BitVec 256 := Config.sha256 (Gcm.beBytes 32 old.toNat ++ Gcm.beBytes 32 digest.toNat)

/-- DEVICE_BOOT (R362): a verified image is measured and started, else the recovery function is exposed. -/
def execDeviceBoot (s : State) : Host.Outcome State Fault Refusal :=
  if s.boot.phase = .running then finish s s
  else match s.boot.image with
    | none => finish s { s with boot := { s.boot with phase := .recovery } }
    | some i =>
      let conf := freeBytes s.free 32
      let t := { s with
        free := s.free + 32
        boot := { s.boot with
          phase := .running, version := i.version, started := false
          measures := List.zipWith extended s.boot.measures [Config.sha256 Config.bootRom, Config.sha256 i.bytes, Config.sha256 conf] } }
      finish s (t.setQueue queueZero)

/-- RECOVERY_IMAGE_ACCEPT (R362 step 4). -/
def execRecoveryImageAccept (slot : Nat) (image : FlashImage) (s : State) : Host.Outcome State Fault Refusal :=
  if s.boot.phase = .recovery ∧ slot < 2 then
    finish s { s with boot := { s.boot with slots := upsert (fun q => q.1 == slot) (slot, image) s.boot.slots } }
  else finish s s

/-- ROLLBACK_ADVANCE (R362): after a completed start. -/
def execRollbackAdvance (s : State) : Host.Outcome State Fault Refusal :=
  if s.booted then finish s { s with boot := { s.boot with started := true, rollback := max s.boot.rollback s.boot.version } }
  else finish s s

/-- A record with CTX 255. -/
def forAll (w : BitVec 1024) : BitVec 1024 := w ||| BitVec.ofNat 1024 (255 * 2^64)

/-- The record of a launch's completion counter (R82, R253): a 1×1 counter array, which every context of the device may add to and read. -/
def signalRecord (dev base : Nat) : BitVec 1024 :=
  forAll (BitVec.ofNat 1024 (1 + 2 * 2^8 + 5 * 2^13 + 3 * 2^24 + dev % 2^18 * 2^72 + base % 2^48 * 2^128 + 2^256 + 2^288))

/-- Whether the loader's places for a launch record are such as R82 and R255 say (log 66). -/
def GraphLaunch.placed (l : GraphLaunch) : Bool :=
  let hbm := match bankOf l.crec with
    | some (.hbm _) => true
    | _ => false
  l.addr % 64 == 0 && assigned l.addr 256 && l.crec % 64 == 0 && hbm && l.base % 64 == 0 && bankOf l.base == some (.hub 0)

/-- What the loader does in a launch record (R82): LID, the completion record's address, a counter for CSIG, and its report to the host;
none where the counter's record is rejected, or its handle names a counter already: each launch record gets one of its own. -/
def State.loadLaunch (s : State) (l : GraphLaunch) : Option State :=
  let n := s.host.loaded + 1
  let lid : Word := BitVec.ofNat 64 (n % 2^32 + 2^32)
  let csig : Word := BitVec.ofNat 64 l.handle
  if s.stateNow l.handle ≠ 0 then none
  else (s.installObjs 255 [] [(BitVec.ofNat 64 l.handle, signalRecord s.devId l.base)]).map fun s =>
    ((((s.writeWord (l.addr + 8) lid).writeWord (l.addr + 48) (BitVec.ofNat 64 l.crec)).writeWord (l.addr + 56) csig).modHost fun h =>
      { h with loaded := n }).record (.loaded lid l.crec csig)

/-- Management services an absent block of an object of this device (R206, R350, R353): it writes the content that it keeps for the block at a
free block address that it chooses (log 25), and marks the block present, as ORRES does; not while a command waits for the object. -/
def State.serveBlock (s : State) (h b addr : Nat) : State :=
  match s.obj? h with
  | some r =>
    let entry : Word := BitVec.ofNat 64 (2^62 + addr)
    if s.booted = false ∨ s.serves .faults = false ∨ r.st ≠ 2 ∨ r.owner ≠ s.devId ∨ r.blocks ≤ b ∨ s.hubBusy h = true
        ∨ entryRejected s.devId r entry = true ∨ s.freeRun addr r.blockLen = false ∨ entryPresent (s.readWord (r.base + 8 * b)) = true then s
    else
      let s := match s.host.backing.find? fun k => k.handle == h && k.block == b with
        | some k => s.write addr k.bytes
        | none => s
      s.writeResidency h r b [entry]
  | none => s

/-- IMAGE_LOAD (R82, R350, R351): data is written, records are installed with CTX 255, each as an accepted ORSET would, and the launch records
are completed; an image that breaks a limit is not loaded. -/
def execImageLoad (image : GraphImage) (s : State) : Host.Outcome State Fault Refusal :=
  let t := image.writes.foldl (fun s w => s.write w.1 w.2) s
  let recs := image.objs.map fun q => (BitVec.ofNat 64 q.1, forAll q.2)
  if s.booted = false ∨ (image.writes.all fun w => assigned w.1 w.2.length) = false ∨ (image.launches.all GraphLaunch.placed) = false then
    finish s s
  else match image.launches.foldl (fun o l => o.bind fun s => s.loadLaunch l) (t.installObjs 255 [] recs) with
    | some u => finish s (u.modHost fun h => { h with
        backing := image.backing ++ h.backing.filter fun k => !(image.backing.any fun b => b.handle == k.handle && b.block == k.block) })
    | none => finish s s

end Sys2Proof.Machine
end

