-- ==== Sys2Proof/Machine/Dispatch.lean ====
section
/-! DEFINITION. The meaning of every instruction, one arm for each row of the opcode table. -/

namespace Sys2Proof.Machine

/-- The meaning of an instruction in a state. -/
def exec (i : Instr) (s : State) : Host.Outcome State Fault Refusal :=
  match i with
  | .add d a b => Sys2Proof.Machine.execAdd d a b s
  | .sub d a b => Sys2Proof.Machine.execSub d a b s
  | .mul d a b => Sys2Proof.Machine.execMul d a b s
  | .mulh d a b => Sys2Proof.Machine.execMulh d a b s
  | .div d a b => Sys2Proof.Machine.execDiv d a b s
  | .rem d a b => Sys2Proof.Machine.execRem d a b s
  | .min d a b => Sys2Proof.Machine.execMin d a b s
  | .max d a b => Sys2Proof.Machine.execMax d a b s
  | .and d a b => Sys2Proof.Machine.execAnd d a b s
  | .or d a b => Sys2Proof.Machine.execOr d a b s
  | .xor d a b => Sys2Proof.Machine.execXor d a b s
  | .shl d a b => Sys2Proof.Machine.execShl d a b s
  | .shr d a b => Sys2Proof.Machine.execShr d a b s
  | .sra d a b => Sys2Proof.Machine.execSra d a b s
  | .slt d a b => Sys2Proof.Machine.execSlt d a b s
  | .sltu d a b => Sys2Proof.Machine.execSltu d a b s
  | .clz d a => Sys2Proof.Machine.execClz d a s
  | .popc d a => Sys2Proof.Machine.execPopc d a s
  | .mov d a w => Sys2Proof.Machine.execMov d a w s
  | .addImm d a iv => Sys2Proof.Machine.execAddImm d a iv s
  | .subImm d a iv => Sys2Proof.Machine.execSubImm d a iv s
  | .mulImm d a iv => Sys2Proof.Machine.execMulImm d a iv s
  | .mulhImm d a iv => Sys2Proof.Machine.execMulhImm d a iv s
  | .divImm d a iv => Sys2Proof.Machine.execDivImm d a iv s
  | .remImm d a iv => Sys2Proof.Machine.execRemImm d a iv s
  | .minImm d a iv => Sys2Proof.Machine.execMinImm d a iv s
  | .maxImm d a iv => Sys2Proof.Machine.execMaxImm d a iv s
  | .andImm d a iv => Sys2Proof.Machine.execAndImm d a iv s
  | .orImm d a iv => Sys2Proof.Machine.execOrImm d a iv s
  | .xorImm d a iv => Sys2Proof.Machine.execXorImm d a iv s
  | .shlImm d a iv => Sys2Proof.Machine.execShlImm d a iv s
  | .shrImm d a iv => Sys2Proof.Machine.execShrImm d a iv s
  | .sraImm d a iv => Sys2Proof.Machine.execSraImm d a iv s
  | .sltImm d a iv => Sys2Proof.Machine.execSltImm d a iv s
  | .sltuImm d a iv => Sys2Proof.Machine.execSltuImm d a iv s
  | .lui d iv => Sys2Proof.Machine.execLui d iv s
  | .adpc d iv => Sys2Proof.Machine.execAdpc d iv s
  | .jal d o => Sys2Proof.Machine.execJal d o s
  | .jalr d a iv => Sys2Proof.Machine.execJalr d a iv s
  | .beq a b o => Sys2Proof.Machine.execBeq a b o s
  | .bne a b o => Sys2Proof.Machine.execBne a b o s
  | .blt a b o => Sys2Proof.Machine.execBlt a b o s
  | .bge a b o => Sys2Proof.Machine.execBge a b o s
  | .bltu a b o => Sys2Proof.Machine.execBltu a b o s
  | .bgeu a b o => Sys2Proof.Machine.execBgeu a b o s
  | .loop a o => Sys2Proof.Machine.execLoop a o s
  | .loopx => Sys2Proof.Machine.execLoopx s
  | .ldb d a iv => Sys2Proof.Machine.execLdb d a iv s
  | .ldbu d a iv => Sys2Proof.Machine.execLdbu d a iv s
  | .ldh d a iv => Sys2Proof.Machine.execLdh d a iv s
  | .ldhu d a iv => Sys2Proof.Machine.execLdhu d a iv s
  | .ldw d a iv => Sys2Proof.Machine.execLdw d a iv s
  | .ldd d a iv => Sys2Proof.Machine.execLdd d a iv s
  | .ldv d a w iv => Sys2Proof.Machine.execLdv d a w iv s
  | .stb r a iv => Sys2Proof.Machine.execStb r a iv s
  | .sth r a iv => Sys2Proof.Machine.execSth r a iv s
  | .stw r a iv => Sys2Proof.Machine.execStw r a iv s
  | .std r a iv => Sys2Proof.Machine.execStd r a iv s
  | .stv r a w iv => Sys2Proof.Machine.execStv r a w iv s
  | .amadd d a b => Sys2Proof.Machine.execAmadd d a b s
  | .amswp d a b => Sys2Proof.Machine.execAmswp d a b s
  | .amcas d a b => Sys2Proof.Machine.execAmcas d a b s
  | .krd d k => Sys2Proof.Machine.execKrd d k s
  | .kwr a k => Sys2Proof.Machine.execKwr a k s
  | .kset a k => Sys2Proof.Machine.execKset a k s
  | .kclr a k => Sys2Proof.Machine.execKclr a k s
  | .fenceEngine => Sys2Proof.Machine.execFenceEngine s
  | .fenceCore => Sys2Proof.Machine.execFenceCore s
  | .fenceQuad => Sys2Proof.Machine.execFenceQuad s
  | .fenceCluster => Sys2Proof.Machine.execFenceCluster s
  | .fenceDie => Sys2Proof.Machine.execFenceDie s
  | .fenceDevice => Sys2Proof.Machine.execFenceDevice s
  | .fenceSystem => Sys2Proof.Machine.execFenceSystem s
  | .fenceComplete core => Sys2Proof.Machine.execFenceComplete core s
  | .gload d a => Sys2Proof.Machine.execGload d a s
  | .gloadSwitchWrite core => Sys2Proof.Machine.execGloadSwitchWrite core s
  | .dset d a b => Sys2Proof.Machine.execDset d a b s
  | .inj b => Sys2Proof.Machine.execInj b s
  | .injp a b => Sys2Proof.Machine.execInjp a b s
  | .injAccept core => Sys2Proof.Machine.execInjAccept core s
  | .trecv d => Sys2Proof.Machine.execTrecv d s
  | .trecvReturn core => Sys2Proof.Machine.execTrecvReturn core s
  | .ecall => Sys2Proof.Machine.execEcall s
  | .ebreak => Sys2Proof.Machine.execEbreak s
  | .eret => Sys2Proof.Machine.execEret s
  | .wfe => Sys2Proof.Machine.execWfe s
  | .wfeWake core => Sys2Proof.Machine.execWfeWake core s
  | .sev => Sys2Proof.Machine.execSev s
  | .orset a b => Sys2Proof.Machine.execOrset a b s
  | .orinv a b => Sys2Proof.Machine.execOrinv a b s
  | .ormov a b => Sys2Proof.Machine.execOrmov a b s
  | .orres a b => Sys2Proof.Machine.execOrres a b s
  | .lnch d a => Sys2Proof.Machine.execLnch d a s
  | .lnchAccept core => Sys2Proof.Machine.execLnchAccept core s
  | .asyncTrapEntry core => Sys2Proof.Machine.execAsyncTrapEntry core s
  | .mma f => Sys2Proof.Machine.execMma f s
  | .mmaz f => Sys2Proof.Machine.execMmaz f s
  | .mmat f => Sys2Proof.Machine.execMmat f s
  | .mmatz f => Sys2Proof.Machine.execMmatz f s
  | .cmma f => Sys2Proof.Machine.execCmma f s
  | .cmmaz f => Sys2Proof.Machine.execCmmaz f s
  | .qmma f => Sys2Proof.Machine.execQmma f s
  | .qmmaz f => Sys2Proof.Machine.execQmmaz f s
  | .accld f => Sys2Proof.Machine.execAccld f s
  | .accst f => Sys2Proof.Machine.execAccst f s
  | .accz f => Sys2Proof.Machine.execAccz f s
  | .accscl f => Sys2Proof.Machine.execAccscl f s
  | .mcont f => Sys2Proof.Machine.execMcont f s
  | .tld f => Sys2Proof.Machine.execTld f s
  | .tst f => Sys2Proof.Machine.execTst f s
  | .sld f => Sys2Proof.Machine.execSld f s
  | .sst f => Sys2Proof.Machine.execSst f s
  | .tldg f => Sys2Proof.Machine.execTldg f s
  | .tsts f => Sys2Proof.Machine.execTsts f s
  | .atad f => Sys2Proof.Machine.execAtad f s
  | .atmn f => Sys2Proof.Machine.execAtmn f s
  | .atmx f => Sys2Proof.Machine.execAtmx f s
  | .atxc f => Sys2Proof.Machine.execAtxc f s
  | .atcs f => Sys2Proof.Machine.execAtcs f s
  | .rpush f => Sys2Proof.Machine.execRpush f s
  | .rpop f => Sys2Proof.Machine.execRpop f s
  | .fncEngine f => Sys2Proof.Machine.execFncEngine f s
  | .fncCore f => Sys2Proof.Machine.execFncCore f s
  | .fncQuad f => Sys2Proof.Machine.execFncQuad f s
  | .fncCluster f => Sys2Proof.Machine.execFncCluster f s
  | .fncDie f => Sys2Proof.Machine.execFncDie f s
  | .fncDevice f => Sys2Proof.Machine.execFncDevice f s
  | .fncSystem f => Sys2Proof.Machine.execFncSystem f s
  | .stadv f => Sys2Proof.Machine.execStadv f s
  | .cnadd f => Sys2Proof.Machine.execCnadd f s
  | .cnwt f => Sys2Proof.Machine.execCnwt f s
  | .cnrd f => Sys2Proof.Machine.execCnrd f s
  | .shop f => Sys2Proof.Machine.execShop f s
  | .publ f => Sys2Proof.Machine.execPubl f s
  | .nmiv f => Sys2Proof.Machine.execNmiv f s
  | .mcst f => Sys2Proof.Machine.execMcst f s
  | .cmpr f => Sys2Proof.Machine.execCmpr f s
  | .lnchOperator f => Sys2Proof.Machine.execLnchOperator f s
  | .tkrp f => Sys2Proof.Machine.execTkrp f s
  | .tkcl f => Sys2Proof.Machine.execTkcl f s
  | .tkq f => Sys2Proof.Machine.execTkq f s
  | .chsv f => Sys2Proof.Machine.execChsv f s
  | .chrs f => Sys2Proof.Machine.execChrs f s
  | .chrp f => Sys2Proof.Machine.execChrp f s
  | .vadd f => Sys2Proof.Machine.execVadd f s
  | .vsub f => Sys2Proof.Machine.execVsub f s
  | .vmul f => Sys2Proof.Machine.execVmul f s
  | .vfma f => Sys2Proof.Machine.execVfma f s
  | .vfms f => Sys2Proof.Machine.execVfms f s
  | .vdiv f => Sys2Proof.Machine.execVdiv f s
  | .vsqrt f => Sys2Proof.Machine.execVsqrt f s
  | .vrcp f => Sys2Proof.Machine.execVrcp f s
  | .vrsq f => Sys2Proof.Machine.execVrsq f s
  | .vexp f => Sys2Proof.Machine.execVexp f s
  | .vexp2 f => Sys2Proof.Machine.execVexp2 f s
  | .vlog2 f => Sys2Proof.Machine.execVlog2 f s
  | .vtanh f => Sys2Proof.Machine.execVtanh f s
  | .vsigm f => Sys2Proof.Machine.execVsigm f s
  | .vmax f => Sys2Proof.Machine.execVmax f s
  | .vmin f => Sys2Proof.Machine.execVmin f s
  | .vabs f => Sys2Proof.Machine.execVabs f s
  | .vneg f => Sys2Proof.Machine.execVneg f s
  | .vcps f => Sys2Proof.Machine.execVcps f s
  | .vsclx f => Sys2Proof.Machine.execVsclx f s
  | .vcvt f => Sys2Proof.Machine.execVcvt f s
  | .vcmpEq f => Sys2Proof.Machine.execVcmpEq f s
  | .vcmpNe f => Sys2Proof.Machine.execVcmpNe f s
  | .vcmpLt f => Sys2Proof.Machine.execVcmpLt f s
  | .vcmpLe f => Sys2Proof.Machine.execVcmpLe f s
  | .vcmpUn f => Sys2Proof.Machine.execVcmpUn f s
  | .vselm f => Sys2Proof.Machine.execVselm f s
  | .viadd f => Sys2Proof.Machine.execViadd f s
  | .visub f => Sys2Proof.Machine.execVisub f s
  | .vimul f => Sys2Proof.Machine.execVimul f s
  | .viand f => Sys2Proof.Machine.execViand f s
  | .vior f => Sys2Proof.Machine.execVior f s
  | .vixor f => Sys2Proof.Machine.execVixor f s
  | .vishl f => Sys2Proof.Machine.execVishl f s
  | .vishr f => Sys2Proof.Machine.execVishr f s
  | .vimin f => Sys2Proof.Machine.execVimin f s
  | .vimax f => Sys2Proof.Machine.execVimax f s
  | .rsumr f => Sys2Proof.Machine.execRsumr f s
  | .rmaxr f => Sys2Proof.Machine.execRmaxr f s
  | .rminr f => Sys2Proof.Machine.execRminr f s
  | .rsumc f => Sys2Proof.Machine.execRsumc f s
  | .rmaxc f => Sys2Proof.Machine.execRmaxc f s
  | .topk f => Sys2Proof.Machine.execTopk f s
  | .vexpd f => Sys2Proof.Machine.execVexpd f s
  | .vrdiv f => Sys2Proof.Machine.execVrdiv f s
  | .ttrn f => Sys2Proof.Machine.execTtrn f s
  | .tbrd f => Sys2Proof.Machine.execTbrd f s
  | .tslc f => Sys2Proof.Machine.execTslc f s
  | .tcat f => Sys2Proof.Machine.execTcat f s
  | .tfill f => Sys2Proof.Machine.execTfill f s
  | .tiota f => Sys2Proof.Machine.execTiota f s
  | .tperm f => Sys2Proof.Machine.execTperm f s
  | .had f => Sys2Proof.Machine.execHad f s
  | .steer f => Sys2Proof.Machine.execSteer f s
  | .select f => Sys2Proof.Machine.execSelect f s
  | .merge f => Sys2Proof.Machine.execMerge f s
  | .gate f => Sys2Proof.Machine.execGate f s
  | .sync f => Sys2Proof.Machine.execSync f s
  | .cola f => Sys2Proof.Machine.execCola f s
  | .colf f => Sys2Proof.Machine.execColf f s
  | .itnx f => Sys2Proof.Machine.execItnx f s
  | .itex f => Sys2Proof.Machine.execItex f s
  | .fork f => Sys2Proof.Machine.execFork f s
  | .bara f => Sys2Proof.Machine.execBara f s
  | .barw f => Sys2Proof.Machine.execBarw f s
  | .pand f => Sys2Proof.Machine.execPand f s
  | .por f => Sys2Proof.Machine.execPor f s
  | .pnot f => Sys2Proof.Machine.execPnot f s
  | .pcnst f => Sys2Proof.Machine.execPcnst f s
  | .sink f => Sys2Proof.Machine.execSink f s
  | .pass f => Sys2Proof.Machine.execPass f s
  | .psn f => Sys2Proof.Machine.execPsn f s
  | .ptst f => Sys2Proof.Machine.execPtst f s
  | .seal f => Sys2Proof.Machine.execSeal f s
  | .trapo f => Sys2Proof.Machine.execTrapo f s
  | .dbrk f => Sys2Proof.Machine.execDbrk f s
  | .dstp f => Sys2Proof.Machine.execDstp f s
  | .dhld f => Sys2Proof.Machine.execDhld f s
  | .eosFiring => Sys2Proof.Machine.execEosFiring s
  | .firingResultSend fid => Sys2Proof.Machine.execFiringResultSend fid s
  | .tokenArrival n => Sys2Proof.Machine.execTokenArrival n s
  | .errorEosArrival n => Sys2Proof.Machine.execErrorEosArrival n s
  | .ingressHeldTokenPlace n => Sys2Proof.Machine.execIngressHeldTokenPlace n s
  | .tilePacketPlace core => Sys2Proof.Machine.execTilePacketPlace core s
  | .allocationGrant core => Sys2Proof.Machine.execAllocationGrant core s
  | .overflowDrawerMove core eng => Sys2Proof.Machine.execOverflowDrawerMove core eng s
  | .colourReturn n => Sys2Proof.Machine.execColourReturn n s
  | .energyRefill => Sys2Proof.Machine.execEnergyRefill s
  | .dataflowStallDetect ctx die => Sys2Proof.Machine.execDataflowStallDetect ctx die s
  | .memoryResponseArrival core ctx order => Sys2Proof.Machine.execMemoryResponseArrival core ctx order s
  | .retireNotice n => Sys2Proof.Machine.execRetireNotice n s
  | .barrierArrivalPerform core ctx order => Sys2Proof.Machine.execBarrierArrivalPerform core ctx order s
  | .barrierWaitAnswer core ctx order => Sys2Proof.Machine.execBarrierWaitAnswer core ctx order s
  | .counterAddPerform core ctx order => Sys2Proof.Machine.execCounterAddPerform core ctx order s
  | .counterWaitSatisfied core ctx order => Sys2Proof.Machine.execCounterWaitSatisfied core ctx order s
  | .ringOpPerform core ctx order => Sys2Proof.Machine.execRingOpPerform core ctx order s
  | .nearMemoryInvocation stack => Sys2Proof.Machine.execNearMemoryInvocation stack s
  | .hubCommandPerform n => Sys2Proof.Machine.execHubCommandPerform n s
  | .relocationUnitCopy handle => Sys2Proof.Machine.execRelocationUnitCopy handle s
  | .relocationFlip handle => Sys2Proof.Machine.execRelocationFlip handle s
  | .generationDrainPost n => Sys2Proof.Machine.execGenerationDrainPost n s
  | .haltLineRise ctx => Sys2Proof.Machine.execHaltLineRise ctx s
  | .preEmptionRequest ctx => Sys2Proof.Machine.execPreEmptionRequest ctx s
  | .engineStop core ctx e => Sys2Proof.Machine.execEngineStop core ctx e s
  | .contextHalted ctx => Sys2Proof.Machine.execContextHalted ctx s
  | .faultServiceResume ctx => Sys2Proof.Machine.execFaultServiceResume ctx s
  | .faultRefusal ctx => Sys2Proof.Machine.execFaultRefusal ctx s
  | .contextSave core ctx => Sys2Proof.Machine.execContextSave core ctx s
  | .contextRestore core ctx => Sys2Proof.Machine.execContextRestore core ctx s
  | .haltLineFall ctx => Sys2Proof.Machine.execHaltLineFall ctx s
  | .refusedTokenResend n => Sys2Proof.Machine.execRefusedTokenResend n s
  | .sectionSeal n => Sys2Proof.Machine.execSectionSeal n s
  | .sectionFinish ctx sect => Sys2Proof.Machine.execSectionFinish ctx sect s
  | .contextLost ctx => Sys2Proof.Machine.execContextLost ctx s
  | .contextCreate n id => Sys2Proof.Machine.execContextCreate n id s
  | .nodeStart ctx node => Sys2Proof.Machine.execNodeStart ctx node s
  | .nodeEnd ctx node => Sys2Proof.Machine.execNodeEnd ctx node s
  | .launchComplete ctx => Sys2Proof.Machine.execLaunchComplete ctx s
  | .copyEntryRun ctx k => Sys2Proof.Machine.execCopyEntryRun ctx k s
  | .copyCounterPost ctx k => Sys2Proof.Machine.execCopyCounterPost ctx k s
  | .remoteRequestAtOwner r => Sys2Proof.Machine.execRemoteRequestAtOwner r s
  | .ticketReceipt core n ticket block gen => Sys2Proof.Machine.execTicketReceipt core n ticket block gen s
  | .replayNotice ticket => Sys2Proof.Machine.execReplayNotice ticket s
  | .refuseNotice ticket => Sys2Proof.Machine.execRefuseNotice ticket s
  | .rejectAnswer core n => Sys2Proof.Machine.execRejectAnswer core n s
  | .cancelAtOwner dev core ctx handle block => Sys2Proof.Machine.execCancelAtOwner dev core ctx handle block s
  | .fabricPacketForward n => Sys2Proof.Machine.execFabricPacketForward n s
  | .undeliverableNotice ctx => Sys2Proof.Machine.execUndeliverableNotice ctx s
  | .fabricAck dev count => Sys2Proof.Machine.execFabricAck dev count s
  | .packetAgePromotion n => Sys2Proof.Machine.execPacketAgePromotion n s
  | .flitGroupReceive port flits => Sys2Proof.Machine.execFlitGroupReceive port flits s
  | .ack port seq => Sys2Proof.Machine.execAck port seq s
  | .nack port seq => Sys2Proof.Machine.execNack port seq s
  | .idle port => Sys2Proof.Machine.execIdle port s
  | .keysw port gen => Sys2Proof.Machine.execKeysw port gen s
  | .retrain port ok => Sys2Proof.Machine.execRetrain port ok s
  | .keyGenerationErase port tx => Sys2Proof.Machine.execKeyGenerationErase port tx s
  | .getVersion port m => Sys2Proof.Machine.execGetVersion port m s
  | .getCapabilities port m => Sys2Proof.Machine.execGetCapabilities port m s
  | .negotiateAlgorithms port m => Sys2Proof.Machine.execNegotiateAlgorithms port m s
  | .getDigests port m => Sys2Proof.Machine.execGetDigests port m s
  | .getCertificate port m => Sys2Proof.Machine.execGetCertificate port m s
  | .challenge port m => Sys2Proof.Machine.execChallenge port m s
  | .getMeasurements port m => Sys2Proof.Machine.execGetMeasurements port m s
  | .keyExchange port m => Sys2Proof.Machine.execKeyExchange port m s
  | .finish port m => Sys2Proof.Machine.execFinish port m s
  | .keyUpdate port m => Sys2Proof.Machine.execKeyUpdate port m s
  | .endSession port m => Sys2Proof.Machine.execEndSession port m s
  | .pskExchange port m => Sys2Proof.Machine.execPskExchange port m s
  | .doorbell q v => Sys2Proof.Machine.execDoorbell q v s
  | .queueEntryAccept q => Sys2Proof.Machine.execQueueEntryAccept q s
  | .bar0OtherWrite off v => Sys2Proof.Machine.execBar0OtherWrite off v s
  | .bar2Access off data => Sys2Proof.Machine.execBar2Access off data s
  | .admitStream => Sys2Proof.Machine.execAdmitStream s
  | .withdrawStream => Sys2Proof.Machine.execWithdrawStream s
  | .makePageExecutable => Sys2Proof.Machine.execMakePageExecutable s
  | .removeExecute => Sys2Proof.Machine.execRemoveExecute s
  | .attachDolz => Sys2Proof.Machine.execAttachDolz s
  | .detachDolz => Sys2Proof.Machine.execDetachDolz s
  | .writeRouteEntries => Sys2Proof.Machine.execWriteRouteEntries s
  | .portBringUp => Sys2Proof.Machine.execPortBringUp s
  | .portStart => Sys2Proof.Machine.execPortStart s
  | .portStop => Sys2Proof.Machine.execPortStop s
  | .moveBar2Window => Sys2Proof.Machine.execMoveBar2Window s
  | .createUserQueue => Sys2Proof.Machine.execCreateUserQueue s
  | .removeUserQueue => Sys2Proof.Machine.execRemoveUserQueue s
  | .deviceBoot => Sys2Proof.Machine.execDeviceBoot s
  | .recoveryImageAccept slot image => Sys2Proof.Machine.execRecoveryImageAccept slot image s
  | .rollbackAdvance => Sys2Proof.Machine.execRollbackAdvance s
  | .debugContinue core e => Sys2Proof.Machine.execDebugContinue core e s
  | .singleStep core e => Sys2Proof.Machine.execSingleStep core e s
  | .instructionFetchFault core => Sys2Proof.Machine.execInstructionFetchFault core s
  | .queueSlotMap q slot => Sys2Proof.Machine.execQueueSlotMap q slot s
  | .ownerRefusesService ticket => Sys2Proof.Machine.execOwnerRefusesService ticket s
  | .managementSetsWindows ctx agewin dlwin => Sys2Proof.Machine.execManagementSetsWindows ctx agewin dlwin s
  | .promotionThresholdSet link v => Sys2Proof.Machine.execPromotionThresholdSet link v s
  | .imageLoad image => Sys2Proof.Machine.execImageLoad image s

end Sys2Proof.Machine
end

