-- ==== Sys2Proof/Machine/Order.lean ====
section
/-! DEFINITION. What a turn does before an instruction runs, and which turn comes next when none is scheduled (log 1). -/

namespace Sys2Proof.Machine

/-! ### A control core's turn (R61, R85, R93, R95, R305, R306) -/

/-- Whether a control core may run now: it runs, its context has not halted or ended, and `dolz` does not hold it (R85, R95, R193). -/
def State.ctlRuns (s : State) (c : Ctl) : Bool :=
  c.run == .running && match c.owner with
    | none => false
    | some ctx => match s.ctx? ctx with
      | some x => x.watch.held.isNone && (x.phase == .resident || x.phase == .halting)
      | none => false

/-- The event that ends a control core's wait (R93). -/
def Wait.event (core : Nat) : Wait → Option Instr
  | .none => Option.none
  | .trecv _ => some (.trecvReturn core)
  | .inject _ => some (.injAccept core)
  | .wfe => some (.wfeWake core)
  | .fence _ => some (.fenceComplete core)
  | .launch _ _ => some (.lnchAccept core)
  | .gloadSwitch _ _ => some (.gloadSwitchWrite core)
  | .orres _ _ _ => Option.none

/-- What comes of a control core's turn: nothing, a state, a fetch that faults in a state, an instruction to run in a state, or a
word that is none. -/
inductive CtlTurn where
  | idle
  | done (s : State)
  | fetchFault (s : State)
  | run (i : Instr) (s : State)
  | illegal (w : BitVec 32)

/-- The state in which a control core's instruction runs: the core is the running one, and a comparator counts again for the next
instruction (R305, R306). -/
def State.begin (s : State) (c : Ctl) : State :=
  { s.setCtl { c with brkPassed := false, steps := c.steps.map fun n => n - 1 } with lastRun := c.core, cursor := c.core + 1 }

/-- Whether a step that was asked for is over: none is left and its instruction has completed (R306). -/
def Ctl.stepOver (c : Ctl) : Bool := c.steps == some 0 && c.wait == .none

/-- A control core's turn: the end of a single-step; in a wait, an asynchronous trap or the wait's end; at a boundary, a comparator, a
fetch fault, an asynchronous trap or the next instruction, in this order: a synchronous cause wins (R93). -/
def State.controlTurn (s : State) (core : Nat) : CtlTurn :=
  let c := s.ctl core
  let u : State := { s with lastRun := core, cursor := core + 1 }
  if s.ctlRuns c = false then .idle
  else if c.stepOver then .done (u.stopCtl { c with steps := none } 3 0)
  else if c.wait ≠ .none then
    if c.asyncDue then .run (.asyncTrapEntry core) u
    else match c.wait.event core with
      | some i => .run i u
      | none => .idle
  else match c.comparatorDue with
    | some i => .done (u.breakAt c i)
    | none =>
      if s.fetchFaults c then .fetchFault u
      else if c.asyncDue then .run (.asyncTrapEntry core) u
      else match decodeControl (s.fetchWord core c.pc) with
        | some i => .run i (s.begin c)
        | none => .illegal (s.fetchWord core c.pc)

/-! ### The other turns -/

/-- Whether an instruction of the table is an event, which has no word. -/
def Instr.isEvent (i : Sys2Proof.Instr) : Bool := (encode i).isNone

/-- One ck passes (R177, log 9): the ports close the groups that wait for nothing more (R332). -/
def tickTurn (s : State) : Host.Outcome State Fault Refusal :=
  let t := s.portsTick
  if s.ck % 1024 = 0 then execEnergyRefill t else finish t t.nextCk

/-- A control core's oldest buffered store reaches scratchpad (R88), unless `dolz` holds its context (R193). -/
def drainTurn (s : State) (core : Nat) : Host.Outcome State Fault Refusal :=
  let c := s.ctl core
  if s.ctlHeld c then finish s s
  else
    let r := s.drainOldest c
    finish s (r.1.setCtl r.2)

/-! ### The order when none is scheduled (log 1) -/

/-- What an event does. -/
abbrev Act := State → Host.Outcome State Fault Refusal

/-- The outcome of the first event in a list that changes the state. -/
def firstChange (s : State) : List Act → Option (Host.Outcome State Fault Refusal)
  | [] => none
  | a :: t => match a s with
    | .next u => if u = s then firstChange s t else some (.next u)
    | o => some o

/-- The cores that hold a context. -/
def State.busyCores (s : State) : List Nat := (s.cores.map fun y => y.core).eraseDups

/-- The engines that issue firings. -/
def engines : List Eng := [.m, .v, .s]

/-- The events of tokens, tiles and firings. -/
def State.flowEvents (s : State) : List Act :=
  let w := s.flow
  let cores := (w.reqs.map fun r => r.core).eraseDups
  (List.range w.seals.length).map execSectionSeal
    ++ (List.range w.returns.length).map execColourReturn
    ++ w.firings.map (fun f => execFiringResultSend f.id)
    ++ (List.range w.net.length).flatMap (fun n => [execTokenArrival n, execErrorEosArrival n])
    ++ (List.range w.ingress.length).map execIngressHeldTokenPlace
    ++ cores.flatMap (fun c => [execTilePacketPlace c, execAllocationGrant c])
    ++ s.busyCores.flatMap fun c => engines.map (execOverflowDrawerMove c)

/-- Whether the tile access of an entry has rows still to issue: when no turn is scheduled, memory answers all of them together. -/
def State.rowsToIssue (s : State) (e : Chest) : Bool :=
  match s.firing? e.fid with
  | some f => f.job.tile?.isSome && f.phase != .stopped && decide (s.issuedRows f < f.goalRows)
  | none => false

/-- The events of the memory system. -/
def State.memEvents (s : State) : List Act :=
  let m := s.msys
  (m.chest.filter fun e => !s.rowsToIssue e).flatMap (fun e => [execMemoryResponseArrival, execBarrierArrivalPerform,
      execBarrierWaitAnswer, execCounterAddPerform, execCounterWaitSatisfied, execRingOpPerform].map fun act => act e.core e.ctx e.order)
    ++ (List.range 8).map execNearMemoryInvocation
    ++ (List.range m.retires.length).map execRetireNotice
    ++ (List.range m.hub.length).flatMap (fun n => [execHubCommandPerform n, execGenerationDrainPost n])
    ++ m.relocs.flatMap fun r => [execRelocationUnitCopy r.handle, execRelocationFlip r.handle]

/-- The events of one context. -/
def State.ctxEvents (s : State) (x : Ctx) : List Act :=
  let parts := (s.cores.filter fun y => y.ctx == x.id).map fun y => y.core
  [execHaltLineRise x.id] ++ parts.flatMap (fun c => (List.range 5).map (execEngineStop c x.id))
    ++ [execContextHalted x.id, execContextLost x.id]
    ++ x.sects.map (fun t => execSectionFinish x.id t.id)
    ++ (List.range x.nodes.length).flatMap (fun n => [execNodeEnd x.id n, execNodeStart x.id n])
    ++ (List.range x.copies.length).flatMap (fun k => [execCopyCounterPost x.id k, execCopyEntryRun x.id k])
    ++ [execLaunchComplete x.id] ++ x.dies.map (execDataflowStallDetect x.id)

/-- The rows that serve the oldest management request (R361): each leaves a request of another kind alone. -/
def requestEvents : List Act :=
  [execAdmitStream, execWithdrawStream, execMakePageExecutable, execRemoveExecute, execAttachDolz, execDetachDolz,
   execWriteRouteEntries, execPortBringUp, execPortStart, execPortStop, execMoveBar2Window, execCreateUserQueue, execRemoveUserQueue]

/-- The lowest context id not in use; 255 is never given (R159). -/
def State.freeCtxId (s : State) : Option Nat := (List.range 255).find? fun i => (s.ctx? i).isNone

/-- The events of launches, queues, requests and the fabric. -/
def State.deviceEvents (s : State) : List Act :=
  let n := s.host.launches.length + s.host.ctxLaunches.length
  (match s.freeCtxId with
   | some id => (List.range n).map fun k => execContextCreate k id
   | none => [])
    ++ (if s.host.requests.isEmpty then [] else requestEvents)
    ++ s.host.queues.map (fun q => execQueueEntryAccept q.q)
    ++ (if s.boot.started then [execRollbackAdvance] else [])
    ++ (List.range s.fabric.packets.length).flatMap (fun k => [execPacketAgePromotion k, execFabricPacketForward k])
    ++ (List.range (s.fabric.refused.length + s.fabric.replays.length)).map execRefusedTokenResend
    ++ (List.range s.fabric.ports.length).flatMap fun p => [execKeyGenerationErase p true, execKeyGenerationErase p false]

/-- The events that may come by themselves; what the outside decides (the host, other devices, the debugger, management's service of
faults, the firmware scheduler's pre-emption, saves and restores) comes only when it is scheduled. A halt line that can fall falls first,
before memory answers what has been reissued. -/
def State.events (s : State) : List Act :=
  s.ctxs.map (fun x => execHaltLineFall x.id) ++ s.flowEvents ++ s.memEvents ++ s.ctxs.flatMap s.ctxEvents ++ s.deviceEvents

/-- Whether an engine has something to issue. -/
def State.issues (s : State) (core : Nat) (e : Eng) : Bool :=
  match s.chosen core e with
  | .none => false
  | _ => true

/-- The engines with something to issue. -/
def State.issueTurns (s : State) : List Turn :=
  s.busyCores.flatMap fun c => (engines.filter fun e => s.issues c e).map (Turn.issue c)

/-- The control cores that have not had their turn in this ck, ascending, and those with buffered stores. -/
def State.controlTurns (s : State) : List Turn :=
  ((List.range 384).filter fun k => decide (s.cursor ≤ k) && s.ctlRuns (s.ctl k)).map Turn.control
    ++ (s.ctls.filter fun c => !c.sbuf.isEmpty && !s.ctlHeld c).map fun c => Turn.drain c.core

/-- The turn that comes when none is scheduled and no event can happen (log 1): an engine's issue, then the control cores in order, then
the stores they buffered, then the next ck. -/
def State.nextTurn (s : State) : Turn := (s.issueTurns ++ s.controlTurns).headD .tick

/-! ### Placing an instruction for the next step (log 10) -/

/-- A context of one core for a program placed from outside (log 10): no objects, one section. -/
def loadedCtx (ck : Nat) : Ctx :=
  { id := 0, prio := 0, cols := 0, tagfmt := 0, ceiling := 1, erate := 1, agewin := 1000, dlwin := 100000, part := 1, owned := 1,
    groups := [], excl := 0,
    sects := [{ id := 0, tiles := 1, blocks := [], toks := (0, 0), cset := 1, active := true, finished := false, sealed := false }],
    copies := [], edges := [], nodes := [], lid := 0, crec := 0, csig := 0, tvec := 0, tstart := ck, tend := 0, faults := 0, orph := 0,
    fkind := 0, fsect := 0, fck := 0, rdet := [], sealed := false, empty := false, aband := false, phase := .resident, causes := [],
    pendSeals := [], dolz := false, watch := Watch.reset, stall := [], saveBase := [], queue := none }

/-- Its part on core 0. -/
def loadedPart : CoreCtx :=
  { core := 0, ctx := 0, fpmode := 0, fpflags := 0, raised := (0, 0), ebudget := 1, shortfall := 0, rstg := 0, pool := [],
    sects := [{ sect := 0, count := 0, spent := false }], eosSeen := [], accs := List.replicate 4 AccSet.reset, areaAsked := false,
    area := none, everInM := false, i2seq := 0, order := 0, stops := [], cont := none, part := none }

/-- The machine with that context resident on core 0, and its other contexts off that core. -/
def State.withLoadedCtx (s : State) : State :=
  { s with
    boot := { s.boot with phase := .running }
    ctxs := upsert (fun x => x.id == 0) (loadedCtx s.ck) s.ctxs
    cores := loadedPart :: s.cores.filter fun y => y.core != 0 && y.ctx != 0 }

/-- The control core of core 0 as it takes a placed word: running, in no wait, nothing pending, its pc in private SRAM. -/
def Ctl.ready (c : Ctl) : Ctl :=
  let pc := if inSram c.pc.toNat then c.pc else 0
  { c with
    owner := some 0, run := .running, wait := .none, brkPassed := true, steps := none, pc := pc
    status := setBit (setBit (setBit c.status 32 false) 33 false) 34 false
    exec := c.exec ||| BitVec.twoPow 32 (pc.toNat / 4096) }

/-- A control word placed at the pc of core 0's control core. -/
def State.placeControl (s : State) (w : BitVec 32) : State :=
  let c := (s.ctl 0).ready
  let k := coreKey 0 c.pc.toNat
  let t := s.withLoadedCtx.setCtl c
  { t with
    mem := t.mem.write k (leBytes 4 w.toNat)
    ecc := t.ecc.filter fun e => !decide (k ≤ e ∧ e < k + 4)
    sched := [.control 0] }

/-- A token that a placed operator's port takes: the scalar 0, or a false predicate on port p. -/
def placedToken (e : Eng) (port : Nat) : Token :=
  { core := 0, eng := e, slot := 0, port := port, ctx := 0, col := 0, kind := if port = 2 then 2 else 1, sect := 0, psn := false,
    seq := 0, tag := 0, w0 := 0, w1 := 0 }

/-- The first engine whose table takes an opcode (R64). -/
def legalEngine (w : BitVec 32) : Eng := (engines.find? fun e => opLegalOn (wordOp w) e).getD .s

/-- An operator word in slot 0 of an engine of core 0, with a token on each declared port, matched. -/
def State.placeOperator (s : State) (w : BitVec 32) : State :=
  let e := legalEngine w
  let sl : Slot := { core := 0, ctx := 0, eng := e, slot := 0, word := w, lit0 := 0, lit1 := 0, acc := 0, ecls := 0, rm := 0, brk := false,
                     edge := 0, fen := false, fcol := 0, sect := 0 }
  let tok (p : Nat) : Option Token := if sl.declares p then some (placedToken e p) else none
  let r : Ready := { core := 0, ctx := 0, eng := e, slot := 0, col := 0, a := tok 0, b := tok 1, p := tok 2, overflow := none,
                     seq := s.flow.matchSeq, ck := s.ck, since := 0, got := none, cont := false }
  let t := s.withLoadedCtx
  { t with
    flow := { t.flow with
      slots := sl :: t.flow.slots.filter fun q => !(q.core == 0 && q.ctx == 0 && q.eng == e && q.slot == 0)
      ready := r :: t.flow.ready.filter fun q => q.core != 0
      cwait := t.flow.cwait.filter fun q => q.core != 0
      firings := t.flow.firings.filter fun f => f.core != 0
      reqs := t.flow.reqs.filter fun q => q.core != 0
      issued := t.flow.issued.filter fun q => q.1 != 0
      asked := t.flow.asked.filter fun q => q.1 != 0
      matchSeq := s.flow.matchSeq + 1 }
    sched := [.issue 0 e] }

/-- The machine with the instruction of a word placed where its next step takes it: an operator's word where it is legal as one, as
`decodeTableWord` reads it, else a control word. -/
def State.placeWord (s : State) (w : BitVec 32) : State :=
  match decodeOperator w with
  | some _ => s.placeOperator w
  | none => s.placeControl w

end Sys2Proof.Machine
end

