-- ==== Sys2Proof/Machine/Step.lean ====
section
/-! DEFINITION. One step of the machine: the turn at the head of the schedule, or the one the default order gives (log 1). -/

namespace Sys2Proof.Machine

/-- Run one turn. -/
def runTurn (s : State) : Turn → Host.Outcome State Fault Refusal
  | .control core =>
    match s.controlTurn core with
    | .idle => finish s { s with cursor := core + 1 }
    | .done t => finish s t
    | .fetchFault t => execInstructionFetchFault core t
    | .run i t => exec i t
    | .illegal w => .fault (.illegalControlWord w)
  | .issue core e =>
    match s.chosen core e with
    | .none => finish s s
    | .done t => finish s t
    | .illegal w => .fault (.illegalOperatorWord w)
    | .run i t => exec i t
  | .tick => tickTurn s
  | .drain core => drainTurn s core
  | .event i => if Instr.isEvent i then exec i s else finish s s
  | .router ctx grp foreign => finish s (s.loadRouter ctx grp foreign)
  | .cells core ctx order n => finish s (s.performElements core ctx order n)
  | .breakFault ctx on => finish s (s.breakOnFault ctx on)
  | .objectTable base count => finish s (s.configureTable base count)
  | .page p present => finish s (s.markPage p present)
  | .saveFault ctx => finish s (s.saveFails ctx)
  | .storageError core ctx => finish s (s.storageFails core ctx)
  | .hostWrite ctx poison => finish s (s.hostWrites ctx poison)
  | .deviceId id => finish s (s.assignId id)
  | .peerLock port locked => finish s (s.modPort port fun t => { t with peerLocked := locked })
  | .spdmResponse port m => finish s (s.takeResponse port m)
  | .serve h b a => finish s (s.serveBlock h b a)
  | .fence v => finish s (s.fenceService v)

/-- The step when no turn is scheduled: boot after reset, then whatever event can happen, then the next turn (log 1). -/
def defaultStep (s : State) : Host.Outcome State Fault Refusal :=
  match s.boot.phase with
  | .atReset => execDeviceBoot s
  | .recovery => tickTurn s
  | .running =>
    match firstChange s s.events with
    | some o => o
    | none => runTurn s s.nextTurn

/-- One step. -/
def step (s : State) : Host.Outcome State Fault Refusal :=
  match s.sched with
  | t :: rest => runTurn { s with sched := rest } t
  | [] => defaultStep s

/-- The state with an instruction's word placed where the next step takes it (log 10). Every instruction of the table that has a word
is one 32-bit word. -/
def State.withFetchWord (s : State) (_nbits w : Nat) : State := s.placeWord (BitVec.ofNat 32 w)

end Sys2Proof.Machine
end

