-- ==== Sys2Proof/Safety.lean ====
section
/-! DEFINITION. What counts as a safe run. -/

namespace Sys2Proof.Machine

/-- What holds between steps: memory is in its canonical form and no write of a step is left over (log 3). -/
def State.Inv (s : State) : Prop := s.mem.wf = true ∧ s.log = []

/-- A step is safe when it does not stop the machine. -/
def SafeStep (s : State) : Prop := ∃ t, step s = .next t

/-- The states that n steps lead to without a stop. -/
inductive Reaches (s : State) : Nat → State → Prop where
  | refl : Reaches s 0 s
  | tail {n : Nat} {t u : State} : Reaches s n t → step t = .next u → Reaches s (n + 1) u

/-- A state is safe when no run from it stops the machine. -/
def Safe (s : State) : Prop := ∀ n t, Reaches s n t → SafeStep t

end Sys2Proof.Machine
end

