-- ==== Sys2Proof/Certificates/Slice0/Obligations.lean ====
section
/-! DEFINITION. What is claimed of the model: one statement each, from the numbered rules of the spec. -/

open Sys2Proof Sys2Proof.Machine

namespace Sys2Proof.Claims

/-! ### Words the statements share -/

/-- t is s but for control core k: no byte of memory, no other control core and nothing else differs. -/
structure OnlyCtl (s t : State) (k : Nat) : Prop where
  bytes : ∀ a, t.byteAt a = s.byteAt a
  others : ∀ j, j ≠ k → t.ctl j = s.ctl j
  rest : { t with ctls := s.ctls } = s

/-- Whether the end check of R106 comes at the instruction of c. -/
def atEnd (c : Ctl) : Bool := c.lact && c.pc == c.lend

/-- The control core after an instruction that completes without a taken branch (R97, R106) and writes only general registers: `w` says
what it writes to which; a write to g0 is discarded (R83). -/
structure Completed (c d : Ctl) (w : Reg → Option Word) : Prop where
  regs : ∀ r, d.reg r = if r = 0 then 0 else (w r).getD (c.reg r)
  pc : d.pc = if atEnd c ∧ 1 < c.lcount.toNat then c.lstart else c.pc + 4
  count : d.lcount = if atEnd c then (if 1 < c.lcount.toNat then c.lcount - 1 else 0) else c.lcount
  status : d.status = if atEnd c ∧ ¬ 1 < c.lcount.toNat then setBit c.status 5 false else c.status
  rest : { d with regs := c.regs, pc := c.pc, lcount := c.lcount, status := c.status, wait := c.wait } = c

/-- An instruction completes in a state, writes general registers as `w` says, and changes nothing else. -/
def Writes (i : Instr) (s : State) (w : Reg → Option Word) : Prop :=
  ∃ t, exec i s = .next t ∧ OnlyCtl s t s.lastRun ∧ Completed s.running (t.ctl s.lastRun) w

/-- One register gets a value. -/
def one (d : Reg) (v : Word) (r : Reg) : Option Word := if r = d then some v else none

/-- The value that R97 and R98 give an instruction of register or immediate form, from its sources: the register and the value. -/
def aluResult : Instr → Ctl → Option (Reg × Word)
  | .add d a b, c => some (d, c.reg a + c.reg b)
  | .addImm d a i, c => some (d, c.reg a + sext i)
  | .sub d a b, c => some (d, c.reg a - c.reg b)
  | .subImm d a i, c => some (d, c.reg a - sext i)
  | .mul d a b, c => some (d, c.reg a * c.reg b)
  | .mulImm d a i, c => some (d, c.reg a * sext i)
  | .mulh d a b, c => some (d, mulHigh (c.reg a) (c.reg b))
  | .mulhImm d a i, c => some (d, mulHigh (c.reg a) (sext i))
  | .div d a b, c => some (d, quotient (c.reg a) (c.reg b))
  | .divImm d a i, c => some (d, quotient (c.reg a) (sext i))
  | .rem d a b, c => some (d, remainder (c.reg a) (c.reg b))
  | .remImm d a i, c => some (d, remainder (c.reg a) (sext i))
  | .min d a b, c => some (d, lesser (c.reg a) (c.reg b))
  | .minImm d a i, c => some (d, lesser (c.reg a) (sext i))
  | .max d a b, c => some (d, greater (c.reg a) (c.reg b))
  | .maxImm d a i, c => some (d, greater (c.reg a) (sext i))
  | .and d a b, c => some (d, c.reg a &&& c.reg b)
  | .andImm d a i, c => some (d, c.reg a &&& sext i)
  | .or d a b, c => some (d, c.reg a ||| c.reg b)
  | .orImm d a i, c => some (d, c.reg a ||| sext i)
  | .xor d a b, c => some (d, c.reg a ^^^ c.reg b)
  | .xorImm d a i, c => some (d, c.reg a ^^^ sext i)
  | .shl d a b, c => some (d, c.reg a <<< amount (c.reg b))
  | .shlImm d a i, c => some (d, c.reg a <<< amount (sext i))
  | .shr d a b, c => some (d, c.reg a >>> amount (c.reg b))
  | .shrImm d a i, c => some (d, c.reg a >>> amount (sext i))
  | .sra d a b, c => some (d, (c.reg a).sshiftRight (amount (c.reg b)))
  | .sraImm d a i, c => some (d, (c.reg a).sshiftRight (amount (sext i)))
  | .slt d a b, c => some (d, if (c.reg a).toInt < (c.reg b).toInt then 1 else 0)
  | .sltImm d a i, c => some (d, if (c.reg a).toInt < (sext i).toInt then 1 else 0)
  | .sltu d a b, c => some (d, if (c.reg a).toNat < (c.reg b).toNat then 1 else 0)
  | .sltuImm d a i, c => some (d, if (c.reg a).toNat < (sext i).toNat then 1 else 0)
  | .popc d a, c => some (d, BitVec.ofNat 64 ((List.range 64).countP (c.reg a).getLsbD))
  | .lui d i, _ => some (d, sext i * 65536)
  | .adpc d i, c => some (d, c.pc + 4 * sext i)
  | _, _ => none
where
  /-- Bits 127 to 64 of the signed product. -/
  mulHigh (x y : Word) : Word := (x.signExtend 128 * y.signExtend 128).extractLsb' 64 64
  /-- The signed quotient toward zero; -1 for a zero divisor. -/
  quotient (x y : Word) : Word := if y = 0 then -1 else BitVec.ofInt 64 (x.toInt.tdiv y.toInt)
  /-- The signed remainder; x for a zero divisor. -/
  remainder (x y : Word) : Word := if y = 0 then x else BitVec.ofInt 64 (x.toInt.tmod y.toInt)
  /-- The lesser of two signed words. -/
  lesser (x y : Word) : Word := if x.toInt < y.toInt then x else y
  /-- The greater of two signed words. -/
  greater (x y : Word) : Word := if x.toInt < y.toInt then y else x
  /-- A shift amount: y[5:0]. -/
  amount (y : Word) : Nat := (y.extractLsb' 0 6).toNat

/-- The signed or unsigned comparison that a branch of R102 makes of its two registers, with the displacement. -/
def branchTest : Instr → Ctl → Option (Bool × BitVec 16)
  | .beq a b o, c => some (decide (c.reg a = c.reg b), o)
  | .bne a b o, c => some (decide (c.reg a ≠ c.reg b), o)
  | .blt a b o, c => some (decide ((c.reg a).toInt < (c.reg b).toInt), o)
  | .bge a b o, c => some (decide ((c.reg b).toInt ≤ (c.reg a).toInt), o)
  | .bltu a b o, c => some (decide ((c.reg a).toNat < (c.reg b).toNat), o)
  | .bgeu a b o, c => some (decide ((c.reg b).toNat ≤ (c.reg a).toNat), o)
  | _, _ => none

/-- Whether a byte address is private SRAM (R86). -/
def isSram (x : Word) : Bool := decide (x.toNat < 0x20000)

/-- Whether a byte lies in an executable page (R60, R86). -/
def inExecPage (c : Ctl) (x : Word) : Bool := isSram x && c.exec.getLsbD (x.toNat / 4096)

/-- A control core runs, stands between instructions, and `dolz` does not hold its context (R85, R193). -/
structure AtBoundary (s : State) (k : Nat) : Prop where
  runs : (s.ctl k).run = .running
  waits : (s.ctl k).wait = .none
  free : ∀ x q, (s.ctl k).owner = some x → s.ctx? x = some q → q.watch.held = none

/-- A control core that waits may go on: it runs, and `dolz` does not hold its context (R85, R193). -/
structure MayWake (s : State) (k : Nat) : Prop where
  runs : (s.ctl k).run = .running
  free : ∀ x q, (s.ctl k).owner = some x → s.ctx? x = some q → q.watch.held = none

/-- An instruction answers a state in which control core k is `d` and nothing else has changed. -/
def LeavesAt (k : Nat) (i : Instr) (s : State) (d : Ctl) : Prop := ∃ t, exec i s = .next t ∧ OnlyCtl s t k ∧ t.ctl k = d

/-- The same of the running control core. -/
abbrev Leaves (i : Instr) (s : State) (d : Ctl) : Prop := LeavesAt s.lastRun i s d

end Sys2Proof.Claims

open Sys2Proof.Claims

/-- R97, R98, R83, R106: every arithmetic, logic, shift, comparison and address instruction completes with the value the rules give in gd
(none in g0), moves the pc on by its word or by the end check, and changes nothing else. CLZ: the bits above the counted place are 0, the one
there is 1, and the count of 0 is 64. -/
def Obligations.ArithmeticWritesItsResult : Prop :=
  (∀ (i : Instr) (s : State) (d : Reg) (v : Word), s.log = [] → aluResult i s.running = some (d, v) → Writes i s (one d v))
  ∧ ∀ (s : State) (d a : Reg), s.log = [] →
      ∃ n, n ≤ 64 ∧ (∀ k, k < n → (s.running.reg a).getLsbD (63 - k) = false) ∧ (n < 64 → (s.running.reg a).getLsbD (63 - n) = true)
        ∧ Writes (.clz d a) s (one d (BitVec.ofNat 64 n))

/-- R99: MOV is op 0x00 with fn 0x012 and the group size in W; it copies a group of one, two, four or eight registers, every source read before
any is written. Two aligned groups of one size are equal or disjoint. -/
def Obligations.MovCopiesGroup : Prop :=
  ∀ (d a : Reg) (w : Width),
    encode (.mov d a w) = some ((0x00 : BitVec 6) ++ d ++ a ++ (0 : BitVec 5) ++ w.bits ++ (0x012 : BitVec 9))
    ∧ (Instr.wf (.mov d a w) = true ↔ d.toNat % w.size = 0 ∧ a.toNat % w.size = 0)
    ∧ (Instr.wf (.mov d a w) = true → a = d ∨ a.toNat + w.size ≤ d.toNat ∨ d.toNat + w.size ≤ a.toNat)
    ∧ ∀ (s : State), s.log = [] → Instr.wf (.mov d a w) = true → Writes (.mov d a w) s fun r =>
        if d.toNat ≤ r.toNat ∧ r.toNat < d.toNat + w.size then some (s.running.reg (a + (r - d))) else none

/-- R102: the six branches by op; a taken one goes to pc + 4 * off16 (and makes no end check, R106); one that is not taken completes. -/
def Obligations.BranchesGoWhereTheTestSays : Prop :=
  (∀ (a b : Reg) (o : BitVec 16), let word (op : BitVec 6) : BitVec 32 := op ++ a ++ b ++ o
    encode (.beq a b o) = some (word 0x18) ∧ encode (.bne a b o) = some (word 0x19) ∧ encode (.blt a b o) = some (word 0x1A)
      ∧ encode (.bge a b o) = some (word 0x1B) ∧ encode (.bltu a b o) = some (word 0x1C) ∧ encode (.bgeu a b o) = some (word 0x1D))
  ∧ ∀ (i : Instr) (s : State) (b : Bool) (o : BitVec 16), s.log = [] → branchTest i s.running = some (b, o) →
      if b then Leaves i s { s.running with pc := s.running.pc + 4 * sext o } else Writes i s fun _ => none

/-- R103: JAL, of op 0x14, and JALR, of op 0x15 with imm16[1:0] 0, save the address of the next word in gd and go to their target; a JALR target
that is not word-aligned traps with cause 4 and the target as the trap value, gd unchanged. A target outside an executable page traps with
cause 2 when it is fetched. -/
def Obligations.JumpsLinkAndGo : Prop :=
  (∀ (d a : Reg) (o : BitVec 21) (i : BitVec 16), encode (.jal d o) = some ((0x14 : BitVec 6) ++ d ++ o)
    ∧ encode (.jalr d a i) = some ((0x15 : BitVec 6) ++ d ++ a ++ i) ∧ (Instr.wf (.jalr d a i) = true ↔ i.extractLsb' 0 2 = 0))
  ∧ (∀ (s : State) (k : Nat), s.log = [] → AtBoundary s k → (s.ctl k).hnd = false → inExecPage (s.ctl k) (s.ctl k).pc = false →
      LeavesAt k (.instructionFetchFault k) s ((s.ctl k).trap false 2 (s.ctl k).pc (s.ctl k).pc))
  ∧ ∀ (s : State) (d a : Reg) (o : BitVec 21) (i : BitVec 16), s.log = [] →
    Leaves (.jal d o) s { s.running.setReg d (s.running.pc + 4) with pc := s.running.pc + 4 * sext o }
      ∧ let x := s.running.reg a + sext i
        (x.toNat % 4 = 0 → Leaves (.jalr d a i) s { s.running.setReg d (s.running.pc + 4) with pc := x })
        ∧ (x.toNat % 4 ≠ 0 → s.running.hnd = false → Leaves (.jalr d a i) s (s.running.trap false 4 s.running.pc x))

/-- R104, R105: LOOP, of op 0x1E with off16 at least 1, arms the hardware loop over its body, in place of one that is armed, or skips it for a
count of 0; LOOPX, the one legal word of op 0x1F, disarms it and leaves k.lstart and k.lend, whether or not a loop is armed. -/
def Obligations.LoopArmsAndSkips : Prop :=
  (∀ (a : Reg) (o : BitVec 16), encode (.loop a o) = some ((0x1E : BitVec 6) ++ a ++ (0 : BitVec 5) ++ o)
      ∧ (Instr.wf (.loop a o) = true ↔ 1 ≤ o.toInt))
  ∧ (∀ w : BitVec 32, w.extractLsb' 26 6 = 0x1F → decodeControl w = if w = 0x7C000000 then some .loopx else none)
  ∧ ∀ (s : State) (a : Reg) (o : BitVec 16), s.log = [] →
      let c := s.running
      (c.reg a ≠ 0 → Leaves (.loop a o) s { c with lstart := c.pc + 4, lend := c.pc + 4 * sext o, lcount := c.reg a,
                                                   status := setBit c.status 5 true, pc := c.pc + 4 })
      ∧ (c.reg a = 0 → Leaves (.loop a o) s { c with lcount := 0, status := setBit c.status 5 false, pc := c.pc + 4 * sext o + 4 })
      ∧ Leaves .loopx s { c with lcount := 0, status := setBit c.status 5 false, pc := c.pc + 4 }

namespace Sys2Proof.Claims

/-! ### The control core's memory (R86 to R88) -/

/-- Whether a byte address is scratchpad (R86). -/
def isScratch (x : Word) : Bool := decide (0x1000000 ≤ x.toNat ∧ x.toNat < 0x1240000)

/-- Whether a byte may be accessed: it is mapped, and a store or an atomic does not reach an executable page (R86). -/
def mayTouch (c : Ctl) (store : Bool) (x : Word) : Bool := (isSram x || isScratch x) && !(store && inExecPage c x)

/-- The n bytes from an address may all be accessed. -/
def MayTouchAll (c : Ctl) (store : Bool) (x : Word) (n : Nat) : Prop := ∀ k, k < n → mayTouch c store (x + BitVec.ofNat 64 k) = true

/-- An uncorrectable ECC error among the n bytes from an address that no buffered store covers (R100). -/
def Marked (s : State) (c : Ctl) (x : Word) (n e : Nat) : Prop :=
  e ∈ s.ecc ∧ coreKey c.core x.toNat ≤ e ∧ e < coreKey c.core x.toNat + n ∧ ∀ w ∈ c.sbuf, w.covers e = false

/-- The byte a control core sees at a key of memory: its newest buffered store there, else memory (R88). -/
def seenByte (s : State) (c : Ctl) (k : Nat) : Byte :=
  c.sbuf.foldl (fun b w => if w.covers k then w.bytes.getD (k - w.addr) 0 else b) (s.byteAt k)

/-- The n bytes a control core sees from an address. -/
def seen (s : State) (c : Ctl) (x : Word) (n : Nat) : List Byte := (List.range n).map fun j => seenByte s c (coreKey c.core x.toNat + j)

/-- A little-endian load of bytes, zero-extended. -/
def zeroLoad (bs : List Byte) : Word := BitVec.ofNat 64 (leNat bs)

/-- A load of R100: register, address, bytes and whether it extends the sign. -/
def loadOf : Instr → Ctl → Option (Reg × Word × Nat × Bool)
  | .ldb d a i, c => some (d, c.reg a + sext i, 1, true)
  | .ldbu d a i, c => some (d, c.reg a + sext i, 1, false)
  | .ldh d a i, c => some (d, c.reg a + sext i, 2, true)
  | .ldhu d a i, c => some (d, c.reg a + sext i, 2, false)
  | .ldw d a i, c => some (d, c.reg a + sext i, 4, true)
  | .ldd d a i, c => some (d, c.reg a + sext i, 8, false)
  | _, _ => none

/-- A store of R100: address, bytes, alignment and the byte that goes to each offset. -/
def storeOf : Instr → Ctl → Option (Word × Nat × Nat × (Nat → Byte))
  | .stb r a i, c => some (c.reg a + sext i, 1, 1, fun j => (c.reg r).extractLsb' (8 * j) 8)
  | .sth r a i, c => some (c.reg a + sext i, 2, 2, fun j => (c.reg r).extractLsb' (8 * j) 8)
  | .stw r a i, c => some (c.reg a + sext i, 4, 4, fun j => (c.reg r).extractLsb' (8 * j) 8)
  | .std r a i, c => some (c.reg a + sext i, 8, 8, fun j => (c.reg r).extractLsb' (8 * j) 8)
  | .stv r a w i, c => some (c.reg a + sext i, 8 * w.size, 8, fun j => (c.reg (r + BitVec.ofNat 5 (j / 8))).extractLsb' (8 * (j % 8)) 8)
  | _, _ => none

/-- An atomic of R101: gd, the address, and the new contents from the old, if any. -/
def atomicOf : Instr → Ctl → Option (Reg × Word × (Word → Option Word))
  | .amadd d a b, c => some (d, c.reg a, fun old => some (old + c.reg b))
  | .amswp d a b, c => some (d, c.reg a, fun _ => some (c.reg b))
  | .amcas d a b, c => some (d, c.reg a, fun old => if old = c.reg d then some (c.reg b) else none)
  | _, _ => none

/-- The access an instruction makes: whether it writes, its address, its bytes and its alignment (R87). -/
def accessOf (i : Instr) (c : Ctl) : Option (Bool × Word × Nat × Nat) :=
  match loadOf i c, storeOf i c, atomicOf i c, i with
  | some (_, x, n, _), _, _, _ => some (false, x, n, n)
  | _, some (x, n, al, _), _, _ => some (true, x, n, al)
  | _, _, some (_, x, _), _ => some (true, x, 8, 8)
  | _, _, _, .ldv _ a w i => some (false, c.reg a + sext i, 8 * w.size, 8)
  | _, _, _, _ => none

/-- t is s but for control core k and memory (a written byte's ECC mark is log 12's matter). -/
structure OnlyCtlMem (s t : State) (k : Nat) : Prop where
  others : ∀ j, j ≠ k → t.ctl j = s.ctl j
  rest : { t with ctls := s.ctls, mem := s.mem, ecc := s.ecc } = s

end Sys2Proof.Claims

/-- R100, R87, R88: an aligned load of mapped bytes without an ECC error puts the bytes the control core sees, sign- or zero-extended, into
gd, LDV into each register of its group; it changes nothing else.
Readings of the model: logs 3, 6. -/
def Obligations.LoadsReadTheBytesSeen : Prop :=
  ∀ (s : State), s.Inv →
    (∀ (i : Instr) (d : Reg) (x : Word) (n : Nat) (sg : Bool), loadOf i s.running = some (d, x, n, sg) → x.toNat % n = 0 →
      MayTouchAll s.running false x n → (∀ e, ¬ Marked s s.running x n e) →
      Writes i s (one d (if sg then (BitVec.ofNat (8 * n) (leNat (seen s s.running x n))).signExtend 64 else zeroLoad (seen s s.running x n))))
    ∧ ∀ (d a : Reg) (w : Width) (o : BitVec 14), Instr.wf (.ldv d a w o) = true →
      let x := s.running.reg a + sext o
      x.toNat % 8 = 0 → MayTouchAll s.running false x (8 * w.size) → (∀ e, ¬ Marked s s.running x (8 * w.size) e) →
      Writes (.ldv d a w o) s fun r =>
        if d.toNat ≤ r.toNat ∧ r.toNat < d.toNat + w.size
        then some (zeroLoad (seen s s.running (x + BitVec.ofNat 64 (8 * (r.toNat - d.toNat))) 8)) else none

/-- R100, R87, R88: an aligned store of mapped bytes outside executable pages completes: in private SRAM its bytes, and no other byte, change in
memory; to scratchpad no byte changes yet, and the store enters the buffer behind the others, an STV as 8-byte accesses in ascending order. No
register is written.
Readings of the model: logs 6, 12. -/
def Obligations.StoresWriteTheirBytes : Prop :=
  ∀ (i : Instr) (s : State) (x : Word) (n al : Nat) (b : Nat → Byte), s.Inv → Instr.wf i = true → storeOf i s.running = some (x, n, al, b) →
    x.toNat % al = 0 → MayTouchAll s.running true x n →
    let k := coreKey s.lastRun x.toNat
    ∃ t, exec i s = .next t ∧ OnlyCtlMem s t s.lastRun
      ∧ t.ctl s.lastRun = s.running.advance { s.running with
          sbuf := if isScratch x then s.running.sbuf ++ (List.range (n / al)).map fun g => ⟨k + al * g, (List.range al).map fun j => b (al * g + j)⟩
                  else s.running.sbuf }
      ∧ ∀ a, t.byteAt a = if isSram x ∧ k ≤ a ∧ a < k + n then b (a - k) else s.byteAt a

/-- R101: an atomic reads its 8 bytes as the control core sees them, writes the new contents if there are any, and puts the old ones into gd;
the buffered stores leave the buffer first, in their order (R219). No byte outside the 8 and those stores changes.
Readings of the model: logs 6, 12. -/
def Obligations.AtomicsReadAndWriteOnce : Prop :=
  ∀ (i : Instr) (s : State) (d : Reg) (x : Word) (f : Word → Option Word), s.Inv → atomicOf i s.running = some (d, x, f) →
    x.toNat % 8 = 0 → MayTouchAll s.running true x 8 → (∀ e, ¬ Marked s s.running x 8 e) →
    let k := coreKey s.lastRun x.toNat
    let old := zeroLoad (seen s s.running x 8)
    let new := (f old).getD old
    ∃ t, exec i s = .next t ∧ OnlyCtlMem s t s.lastRun
      ∧ t.ctl s.lastRun = s.running.advance ({ s.running with sbuf := [] }.setReg d old)
      ∧ (∀ j, j < 8 → t.byteAt (k + j) = new.extractLsb' (8 * j) 8)
      ∧ ∀ a, ¬(k ≤ a ∧ a < k + 8) → t.byteAt a = seenByte s s.running a

/-- R87, R86, R100, R101, R91: a misaligned access traps with cause 4 and the address; otherwise the first byte that may not be accessed gives cause 5
for a load and 6 for a store or an atomic, with its address; a load or an atomic's read that meets an uncorrectable ECC error traps with
cause 7 and the address of 8 bytes in error. No register and no byte changes. That an access both misaligned and forbidden is reported as
misaligned is the model's choice (log 60).
Readings of the model: logs 34, 60. -/
def Obligations.BadAccessesTrap : Prop :=
  (∀ (i : Instr) (s : State) (st : Bool) (x : Word) (n al : Nat), s.log = [] → s.running.hnd = false →
    accessOf i s.running = some (st, x, n, al) →
    let c := s.running
    (x.toNat % al ≠ 0 → Leaves i s (c.trap false 4 c.pc x))
    ∧ ∀ k, x.toNat % al = 0 → k < n → MayTouchAll c st x k → mayTouch c st (x + BitVec.ofNat 64 k) = false →
        Leaves i s (c.trap false (if st then 6 else 5) c.pc (x + BitVec.ofNat 64 k)))
  ∧ ∀ (i : Instr) (s : State) (st : Bool) (x : Word) (n al e : Nat), s.log = [] → s.running.hnd = false →
      accessOf i s.running = some (st, x, n, al) → storeOf i s.running = none → x.toNat % al = 0 → MayTouchAll s.running st x n →
      Marked s s.running x n e →
      ∃ e', Marked s s.running x n e' ∧
        Leaves i s (s.running.trap false 7 s.running.pc (BitVec.ofNat 64 ((e' - coreKey s.lastRun 0) / 8 * 8)))

namespace Sys2Proof.Claims

/-! ### Control registers (R89 to R92, R108) -/

/-- The value of each k-register (R89): those of a context read 0 where no context owns the control core (log 4). -/
def kValue (s : State) (c : Ctl) (k : Nat) : Word :=
  let x : Option Ctx := c.owner.bind s.ctx?
  let y : Option CoreCtx := c.owner.bind fun i => s.cctx? c.core i
  match k with
  | 0x000 => setBit c.status 8 (decide (c.rq ≠ []))
  | 0x001 => c.cause
  | 0x002 => c.epc
  | 0x003 => c.tval
  | 0x004 => c.tvec
  | 0x010 => BitVec.ofNat 64 ((x.map fun x => 256 * x.prio + x.id).getD 0)
  | 0x011 => BitVec.ofNat 64 (c.core % 512 + 2^9 * (c.core % 4) + 2^11 * (c.core / 4 % 4) + 2^13 * (c.core / 16 % 4) + 2^15 * (c.core / 64))
  | 0x020 => BitVec.ofNat 64 ((x.map (·.cols)).getD 0)
  | 0x021 => ((x.map fun (x : Ctx) => x.tagfmt).getD 0).zeroExtend 64
  | 0x030 => (y.map (·.fpmode)).getD 0
  | 0x031 => (y.map (·.fpflags)).getD 0
  | 0x040 => BitVec.ofNat 64 ((y.map (·.ebudget)).getD 0)
  | 0x041 => BitVec.ofNat 64 ((x.map (·.erate)).getD 0)
  | 0x042 => BitVec.ofNat 64 ((x.map (·.agewin)).getD 0)
  | 0x043 => BitVec.ofNat 64 ((x.map (·.dlwin)).getD 0)
  | 0x050 => c.lstart
  | 0x051 => c.lend
  | 0x052 => c.lcount
  | 0x060 => BitVec.ofNat 64 s.ck
  | _ => c.seq

/-- A write of a k-register (R108): its source register, its number, and what becomes of a bit that is RW, W1C or neither. -/
def kWriteOf : Instr → Option (Reg × BitVec 12 × (Bool → Bool → Bool → Bool → Bool))
  | .kwr a k => some (a, k, fun rw w1c old v => if rw then v else if w1c then old && !v else old)
  | .kset a k => some (a, k, fun rw w1c old v => if rw then old || v else if w1c then old && !v else old)
  | .kclr a k => some (a, k, fun rw _ old v => if rw then old && !v else old)
  | _ => none

/-- The bits of a k-register that are RW (R40, R89 to R91). -/
def kRw (k : Nat) (j : Nat) : Bool :=
  match k with
  | 0x000 => decide (j ≤ 6)
  | 0x001 => decide (j ≤ 7 ∨ j = 63)
  | 0x003 | 0x052 => true
  | 0x002 | 0x004 | 0x050 | 0x051 => decide (2 ≤ j)
  | 0x030 => decide (j ≤ 3)
  | _ => false

/-- The bits of a k-register that are W1C (R45, R90). -/
def kW1c (k : Nat) (j : Nat) : Bool :=
  match k with
  | 0x000 => decide (32 ≤ j ∧ j ≤ 34)
  | 0x031 => decide (j ≤ 14)
  | _ => false

/-- The stored value of a writable k-register. -/
def kStored (s : State) (c : Ctl) (k : Nat) : Word := if k = 0 then c.status else kValue s c k

/-- The word that a write of a k-register makes, bit by bit (R108). -/
def IsKNew (s : State) (c : Ctl) (k : Nat) (f : Bool → Bool → Bool → Bool → Bool) (v new : Word) : Prop :=
  ∀ j, j < 64 → new.getLsbD j = f (kRw k j) (kW1c k j) ((kStored s c k).getLsbD j) (v.getLsbD j)

/-- Whether the HN7 has set a bit of k.status or k.fpflags in this ck (R45, R108; log 4). -/
def kSetNow (s : State) (c : Ctl) (k : Nat) (j : Nat) : Bool :=
  let r : Nat × Word := if k = 0 then c.raised else ((c.owner.bind fun i => s.cctx? c.core i).map (·.raised)).getD (0, 0)
  decide (r.1 = s.ck) && r.2.getLsbD j

/-- The word that a k-register holds after a write that asks for `asked`: a W1C bit that the HN7 has set in the same ck stays set (R45,
R108). -/
def IsKKept (s : State) (c : Ctl) (k : Nat) (asked new : Word) : Prop :=
  ∀ j, j < 64 → new.getLsbD j = (asked.getLsbD j || (kW1c k j && (kStored s c k).getLsbD j && kSetNow s c k j))

/-- Whether a write of a k-register needs privilege: one of k.cause to k.tvec, or a change of k.status outside LACT (R92). -/
def kNeedsPriv (c : Ctl) (k : Nat) (new : Word) : Prop := (1 ≤ k ∧ k ≤ 4) ∨ (k = 0 ∧ ∃ j, j < 64 ∧ j ≠ 5 ∧ new.getLsbD j ≠ c.status.getLsbD j)

/-- The control core with a k-register of its own replaced. -/
def withK (c : Ctl) (k : Nat) (new : Word) : Ctl :=
  match k with
  | 0x000 => { c with status := new }
  | 0x001 => { c with cause := new }
  | 0x002 => { c with epc := new }
  | 0x003 => { c with tval := new }
  | 0x004 => { c with tvec := new }
  | 0x050 => { c with lstart := new }
  | 0x051 => { c with lend := new }
  | 0x052 => { c with lcount := new }
  | _ => c

end Sys2Proof.Claims

/-- R108, R89: KRD puts the register's value into gd and changes nothing else. -/
def Obligations.KrdReadsEveryRegister : Prop :=
  ∀ (s : State) (d : Reg) (k : BitVec 12), s.log = [] → Instr.wf (.krd d k) = true →
    Writes (.krd d k) s (one d (kValue s s.running k.toNat))

/-- R108, R92: KWR, KSET and KCLR change the RW and W1C bits of a register as the table says, unless privilege is wanting; a PEND bit that
the HN7 sets in the same ck stays set. For the registers of the control core itself; the end check sees the new loop registers, but the old k.lend (R106). -/
def Obligations.KWritesChangeOneRegister : Prop :=
  ∀ (i : Instr) (s : State) (a : Reg) (k : BitVec 12) (f : Bool → Bool → Bool → Bool → Bool) (asked new : Word), s.log = [] →
    kWriteOf i = some (a, k, f) → Instr.wf i = true → k.toNat ≠ 0x030 → k.toNat ≠ 0x031 → IsKNew s s.running k.toNat f (s.running.reg a) asked →
    IsKKept s s.running k.toNat asked new →
    (s.running.priv = true ∨ ¬ kNeedsPriv s.running k.toNat asked) → Leaves i s (s.running.advance (withK s.running k.toNat new))

/-- R40, R45, R108: a write of k.fpmode whose mode would be above 4 changes nothing; any other write of k.fpmode or k.fpflags changes that
register of the context's part on this core, and no other byte, register or field. A flag raised in the same ck stays set. -/
def Obligations.FpRegistersAreTheContexts : Prop :=
  ∀ (i : Instr) (s : State) (a : Reg) (k : BitVec 12) (f : Bool → Bool → Bool → Bool → Bool) (asked new : Word) (x : Nat) (y : CoreCtx),
    s.log = [] → kWriteOf i = some (a, k, f) → (k.toNat = 0x030 ∨ k.toNat = 0x031) → s.running.owner = some x →
    s.cctx? s.lastRun x = some y → IsKNew s s.running k.toNat f (s.running.reg a) asked → IsKKept s s.running k.toNat asked new →
    ∃ t, exec i s = .next t ∧ t.ctl s.lastRun = s.running.advance s.running ∧ (∀ j, j ≠ s.lastRun → t.ctl j = s.ctl j)
      ∧ { t with ctls := s.ctls, cores := s.cores } = s
      ∧ (∀ c z, (c ≠ s.lastRun ∨ z ≠ x) → t.cctx? c z = s.cctx? c z)
      ∧ t.cctx? s.lastRun x = some (if k.toNat = 0x031 then { y with fpflags := new }
          else if 4 < (new.extractLsb' 0 3).toNat then y else { y with fpmode := new })

/-- R92: without privilege ERET, a write of k.cause, k.epc, k.tval or k.tvec, one that would change a protected field of k.status, and the
four object commands trap with cause 3 and the instruction word, and have no effect. -/
def Obligations.PrivilegeTraps : Prop :=
  ∀ (s : State), s.log = [] → s.running.priv = false → s.running.hnd = false →
    let trap := s.running.trap false 3 s.running.pc ((s.fetchWord s.lastRun s.running.pc).zeroExtend 64)
    Leaves .eret s trap
    ∧ (∀ a b, Leaves (.orset a b) s trap ∧ Leaves (.orinv a b) s trap ∧ Leaves (.ormov a b) s trap ∧ Leaves (.orres a b) s trap)
    ∧ ∀ (i : Instr) (a : Reg) (k : BitVec 12) (f : Bool → Bool → Bool → Bool → Bool) (new : Word), kWriteOf i = some (a, k, f) →
        Instr.wf i = true → IsKNew s s.running k.toNat f (s.running.reg a) new → kNeedsPriv s.running k.toNat new → Leaves i s trap

/-- R114: ERET, privileged, goes to k.epc with PRIV, IE and LACT restored from their saved places and HND clear; no other bit or register
changes, and no end check comes (R106). -/
def Obligations.EretRestores : Prop :=
  ∀ (s : State), s.log = [] → s.running.priv = true →
    ∃ d, Leaves .eret s d ∧ d.pc = s.running.epc
      ∧ (∀ j, j < 64 → d.status.getLsbD j =
          if j = 0 then s.running.status.getLsbD 1 else if j = 2 then s.running.status.getLsbD 3
          else if j = 4 then false else if j = 5 then s.running.status.getLsbD 6 else s.running.status.getLsbD j)
      ∧ { d with pc := s.running.pc, status := s.running.status } = s.running

/-- R96, R114, R91: ECALL and EBREAK complete, their end check included, and then trap with causes 8 and 9 and the address that would have been
fetched next; while the debugger is attached EBREAK stops the control core with reason 7 instead, the debugger receives the stop and holds the context (R193), and
no byte outside its stop record changes.
Readings of the model: logs 19, 65. -/
def Obligations.EcallAndEbreak : Prop :=
  ∀ (s : State), s.Inv → s.running.hnd = false →
    let n := s.running.advance s.running
    Leaves .ecall s (n.trap false 8 n.pc 0)
    ∧ (s.debugged s.running = false → Leaves .ebreak s (n.trap false 9 n.pc 0))
    ∧ (s.debugged s.running = true → ∃ t, exec .ebreak s = .next t ∧ t.ctl s.lastRun = { n with run := .stopped 7 }
        ∧ (∀ j, j ≠ s.lastRun → t.ctl j = s.ctl j) ∧ t.cores = s.cores
        ∧ (∃ x k, s.running.owner = some x ∧ s.ctx? x = some k
          ∧ (∀ j, t.ctx? j = if j = x then some { k with watch := { k.watch with held := k.watch.held.or (some s.ck) } } else s.ctx? j)
          ∧ t.host.log = s.host.log ++ [.stopLine x s.lastRun 3 ((n.pc.toNat - 0x1000) / 4) 0 0 (.stop 7) (s.ck - k.tstart - k.watch.away)])
        ∧ ∀ a, (∀ x b, s.running.owner = some x → s.saveBase? x s.lastRun = some b → ¬(b + 192 ≤ a ∧ a < b + 256)) → t.byteAt a = s.byteAt a)

namespace Sys2Proof.Claims

/-- The block that a control core's GLOAD reads, every byte reachable and free of ECC errors (R86, R109). -/
structure BlockAt (s : State) (c : Ctl) (x : Word) : Prop where
  aligned : x.toNat % 32 = 0
  head : MayTouchAll c false x 8
  whole : MayTouchAll c false x (blockSize (leWord (s.ctlRead c x 8)))
  clean : s.ctlPoison c x (blockSize (leWord (s.ctlRead c x 8))) = none

/-- The command block of an object command is aligned, reachable for its n bytes and its status word, and free of ECC errors (R236). -/
structure CommandAt (s : State) (x : Word) (n : Nat) : Prop where
  priv : s.running.priv = true
  aligned : x.toNat % 64 = 0
  reads : MayTouchAll s.running false x n
  writes : MayTouchAll s.running true x 8
  clean : s.ctlPoison s.running x n = none

/-- The four words an injection presents: header words, payload words (R111, R112). -/
def injectedOf : Instr → Ctl → Option (Bool × Word × Word × Word × Word)
  | .inj b, c => some (false, c.reg b, c.reg (b + 1), c.reg (b + 2), c.reg (b + 3))
  | .injp a b, c => some (true, c.reg b, c.reg (b + 1), BitVec.ofNat 64 ((c.reg a).toNat % 2), 0)
  | _, _ => none

/-- Why an injection is rejected, lowest reason first (R111, R112). -/
def injectReason (s : State) (core ctx : Nat) (p : Bool) (h0 h1 w0 w1 : Word) : Option Nat :=
  let f (lo n : Nat) : Nat := h0.toNat / 2^lo % 2^n
  let kind := f 36 3
  let inPart := match s.ctx? ctx with
    | some x => x.part.getLsbD (f 0 9)
    | none => false
  let reserved := h1.toNat / 2^32 ≠ 0 ∨ (kind = 1 ∨ kind = 6) ∧ w1 ≠ 0 ∨ kind = 2 ∧ (1 < w0.toNat ∨ w1 ≠ 0) ∨ (kind = 3 ∨ kind = 4) ∧ (w0 ≠ 0 ∨ w1 ≠ 0)
  if 383 < f 0 9 ∨ inPart = false then some 1
  else if f 20 2 = 3 then some 2
  else if (if p then kind ≠ 2 ∨ f 20 2 ≠ 2 else kind = 7 ∨ kind = 2) then some 3
  else if (f 47 1 = 1) ≠ (kind = 5 ∨ kind = 6) then some 4
  else if reserved then some 5
  else if (kind = 0 ∨ kind = 5) ∧ s.descLegal core (decide (kind = 5)) w0 w1 = false then some 6
  else none

/-- Control core k, as it stands in c, has raised a synchronous cause inside a handler: it is stopped there with reason 6, its context is lost,
and nothing else changes but the bytes of the core's stop record (R94). -/
structure Doubled (s t : State) (k : Nat) (c : Ctl) : Prop where
  ctl : t.ctl k = { c with run := .stopped 6 }
  others : ∀ j, j ≠ k → t.ctl j = s.ctl j
  lost : ∀ x q, c.owner = some x → s.ctx? x = some q → t.ctx? x = some { q with phase := .lost }
  contexts : ∀ x, c.owner ≠ some x → t.ctx? x = s.ctx? x
  parts : t.cores = s.cores ∧ t.flow = s.flow ∧ t.msys = s.msys ∧ t.host = s.host ∧ t.fabric = s.fabric
  bytes : ∀ a, (∀ x b, c.owner = some x → s.saveBase? x k = some b → ¬(b + 192 ≤ a ∧ a < b + 256)) → t.byteAt a = s.byteAt a

/-- An instruction, or an event of control core k, does that. -/
def DoubleTraps (k : Nat) (i : Instr) (s : State) (c : Ctl) : Prop := ∃ t, exec i s = .next t ∧ Doubled s t k c

/-- The instructions that raise a synchronous cause at once (R61, R86, R87, R92, R96, R100, R101, R103, R109, R111, R112, R236): the state
of the control core then is the one before the instruction, but for ECALL and EBREAK, which complete first. -/
inductive RaisesSync (s : State) : Instr → Prop
  | jalr (d a : Reg) (i : BitVec 16) : (s.running.reg a + sext i).toNat % 4 ≠ 0 → RaisesSync s (.jalr d a i)
  | access (i : Instr) (st : Bool) (x : Word) (n al : Nat) : accessOf i s.running = some (st, x, n, al) →
      (x.toNat % al ≠ 0 ∨ ¬ MayTouchAll s.running st x n) → RaisesSync s i
  | ecc (i : Instr) (st : Bool) (x : Word) (n al e : Nat) : accessOf i s.running = some (st, x, n, al) → storeOf i s.running = none →
      Marked s s.running x n e → RaisesSync s i
  | eret : s.running.priv = false → RaisesSync s .eret
  | kWrite (i : Instr) (a : Reg) (k : BitVec 12) (f : Bool → Bool → Bool → Bool → Bool) (new : Word) : s.running.priv = false →
      kWriteOf i = some (a, k, f) → Instr.wf i = true → IsKNew s s.running k.toNat f (s.running.reg a) new →
      kNeedsPriv s.running k.toNat new → RaisesSync s i
  | orset (a b : Reg) : ¬ CommandAt s (s.running.reg b) 192 → RaisesSync s (.orset a b)
  | orinv (a b : Reg) : ¬ CommandAt s (s.running.reg b) 64 → RaisesSync s (.orinv a b)
  | ormov (a b : Reg) : ¬ CommandAt s (s.running.reg b) 64 → RaisesSync s (.ormov a b)
  | orres (a b : Reg) (n : Nat) : n = leNat (s.ctlRead s.running (s.running.reg b + 24) 8) →
      ¬ CommandAt s (s.running.reg b) (if 1 ≤ n ∧ n ≤ 64 then 64 + 8 * n else 64) → RaisesSync s (.orres a b)
  | gload (d a : Reg) : ¬ BlockAt s s.running (s.running.reg a) → RaisesSync s (.gload d a)
  | inject (i : Instr) (p : Bool) (h0 h1 w0 w1 : Word) (x r : Nat) : injectedOf i s.running = some (p, h0, h1, w0, w1) → Instr.wf i = true →
      s.running.owner = some x → injectReason s s.lastRun x p h0 h1 w0 w1 = some r → RaisesSync s i

end Sys2Proof.Claims

/-- R93, R94: taking a trap saves the pc and the trap value, says the cause, moves PRIV, IE and LACT to their saved places, enters the handler
privileged with IE and LACT clear and HND set, clears the PEND bit of an asynchronous cause, and goes to k.tvec; no other bit of k.status
and no other register changes. No synchronous cause inside a handler enters it again, whichever it is: an instruction's (ECALL, EBREAK, a misaligned,
forbidden or damaged access, a misaligned JALR target, a privileged form, a command or graph block that cannot be read, a rejected
injection), a fetch's, a comparator's or that of a switching GLOAD whose block can no longer be read: the control core stops with reason 6, its
context is lost, and no other register and no other byte than its stop record changes.
Readings of the model: logs 33, 52. -/
def Obligations.TrapEntrySavesAndEnters : Prop :=
  (∀ (c : Ctl) (async : Bool) (code : Nat) (epc tval : Word), code < 256 → (async = true → 16 ≤ code ∧ code ≤ 18) →
    let d := c.trap async code epc tval
    d.pc = c.tvec ∧ d.epc = epc &&& ~~~3 ∧ d.tval = tval
      ∧ (∀ j, j < 64 → d.cause.getLsbD j = if j = 63 then async else decide (j < 8) && code.testBit j)
      ∧ (∀ j, j < 64 → d.status.getLsbD j =
          if j = 0 then true else if j = 1 then c.status.getLsbD 0 else if j = 2 then false else if j = 3 then c.status.getLsbD 2
          else if j = 4 then true else if j = 5 then false else if j = 6 then c.status.getLsbD 5
          else if async ∧ j = code + 16 then false else c.status.getLsbD j)
      ∧ (async = false → d.steps = c.steps) ∧ d.brkPassed = false
      ∧ { d with pc := c.pc, epc := c.epc, tval := c.tval, cause := c.cause, status := c.status, wait := c.wait, steps := c.steps,
                 brkPassed := c.brkPassed } = c)
  ∧ (∀ (s : State), s.Inv → s.running.hnd = true →
      let n := s.running.advance s.running
      DoubleTraps s.lastRun .ecall s n
      ∧ (s.debugged s.running = false → DoubleTraps s.lastRun .ebreak s n)
      ∧ ∀ i, RaisesSync s i → DoubleTraps s.lastRun i s s.running)
  ∧ ∀ (s : State) (k : Nat), s.Inv → (s.ctl k).hnd = true →
      let c := s.ctl k
      (AtBoundary s k → (inExecPage c c.pc = false ∨ ∃ e ∈ s.ecc, coreKey k c.pc.toNat ≤ e ∧ e < coreKey k c.pc.toNat + 4) →
        DoubleTraps k (.instructionFetchFault k) s c)
      ∧ (s.debugged c = false → ∀ i, ∃ t, finish s (s.breakAt c i) = .next t ∧ Doubled s t k c)
      ∧ ∀ d w x, MayWake s k → c.wait = .gloadSwitch d w → c.owner = some x → s.runs x = true → ¬ BlockAt s c (BitVec.ofNat 64 w) →
          s.inProgress k x (s.switched k x (s.ctlBlock c (BitVec.ofNat 64 w))) = false → DoubleTraps k (.gloadSwitchWrite k) s c

namespace Sys2Proof.Claims

/-- No synchronous cause stands at the instruction boundary of control core k (R93): its pc lies in an executable page whose word has no
uncorrectable ECC error, and no address comparator that has not stopped it already matches (R305). -/
structure NoSyncCause (s : State) (k : Nat) : Prop where
  page : inExecPage (s.ctl k) (s.ctl k).pc = true
  clean : ∀ e ∈ s.ecc, ¬(coreKey k (s.ctl k).pc.toNat ≤ e ∧ e < coreKey k (s.ctl k).pc.toNat + 4)
  comparators : (s.ctl k).brkPassed = true ∨ ∀ i w, i < 4 → (s.ctl k).cmps[i]? = some (true, w) → (s.ctl k).pc ≠ BitVec.ofNat 64 (4 * w)

end Sys2Proof.Claims

/-- R93, R90, R299, R315: an asynchronous cause is taken, lowest code first, while IE is 1 and the core stands between instructions, where no
synchronous cause stands, or in a wait of TRECV, INJ, INJP or LNCH; the pc saved is its own. Its PEND bit is cleared, but for a seal's or TRAPO's
while another notice waits. With IE 0 nothing is taken and nothing changes; a synchronous cause at the boundary wins: then the
asynchronous one changes nothing.
Readings of the model: log 51. -/
def Obligations.AsyncTrapsAreTakenLowestFirst : Prop :=
  (∀ (s : State) (k : Nat), s.log = [] → ((s.ctl k).ie = false ∨ (s.ctl k).wait = .none ∧ ¬ NoSyncCause s k) →
    LeavesAt k (.asyncTrapEntry k) s (s.ctl k))
  ∧ ∀ (s : State) (k code : Nat), s.log = [] → (s.ctl k).ie = true → MayWake s k →
    (((s.ctl k).wait = .none ∧ NoSyncCause s k) ∨ (∃ d, (s.ctl k).wait = .trecv d) ∨ (∃ t, (s.ctl k).wait = .inject t) ∨ ∃ d a, (s.ctl k).wait = .launch d a) →
    (code = 16 ∨ code = 17 ∨ code = 18) → (s.ctl k).status.getLsbD (code + 16) = true →
    (∀ j, 16 ≤ j → j < code → (s.ctl k).status.getLsbD (j + 16) = false) →
    ∃ t tval, exec (.asyncTrapEntry k) s = .next t ∧ OnlyCtl s t k
      ∧ let d := (s.ctl k).trap true code (s.ctl k).pc tval
        (t.ctl k).pc = d.pc ∧ (t.ctl k).epc = d.epc ∧ (t.ctl k).cause = d.cause ∧ (t.ctl k).tval = tval ∧ (t.ctl k).regs = (s.ctl k).regs
        ∧ (t.ctl k).wait = .none
        ∧ (∀ j, j ≠ code + 16 → (t.ctl k).status.getLsbD j = d.status.getLsbD j)
        ∧ ((t.ctl k).status.getLsbD (code + 16) = true ↔ (code = 17 ∧ 1 < (s.ctl k).seals.length) ∨ (code = 18 ∧ 1 < (s.ctl k).trapos.length))
        ∧ (code = 16 → tval = BitVec.ofNat 64 (s.ctl k).stallDie)
        ∧ (code = 17 → ∀ q, (s.ctl k).seals.head? = some q → tval = BitVec.ofNat 64 (256 * q.1 + q.2) ∧ (t.ctl k).seals = (s.ctl k).seals.tail)
        ∧ (code = 18 → ∀ q, (s.ctl k).trapos.head? = some q → tval = q ∧ (t.ctl k).trapos = (s.ctl k).trapos.tail)

/-- R61: a fetch outside an executable page traps with cause 2, one of a word with an uncorrectable ECC error with cause 1, each with the
fetched address as its pc and value. -/
def Obligations.FetchFaultsTrap : Prop :=
  ∀ (s : State) (k : Nat), s.log = [] → AtBoundary s k → (s.ctl k).hnd = false →
    (inExecPage (s.ctl k) (s.ctl k).pc = false → LeavesAt k (.instructionFetchFault k) s ((s.ctl k).trap false 2 (s.ctl k).pc (s.ctl k).pc))
    ∧ (inExecPage (s.ctl k) (s.ctl k).pc = true →
        (∃ e ∈ s.ecc, coreKey k (s.ctl k).pc.toNat ≤ e ∧ e < coreKey k (s.ctl k).pc.toNat + 4) →
        LeavesAt k (.instructionFetchFault k) s ((s.ctl k).trap false 1 (s.ctl k).pc (s.ctl k).pc))

/-- R114: WFE completes at once, clearing EVT, when EVT, RQN or a PEND bit is 1, and waits otherwise; WFE_WAKE completes a wait once one of
them is. SEV completes, and sets EVT on every control core of its context. -/
def Obligations.EventsWakeWaiters : Prop :=
  ∀ (s : State), s.log = [] →
    let wakes (c : Ctl) : Prop := c.status.getLsbD 7 = true ∨ c.rq ≠ [] ∨ ∃ j, 32 ≤ j ∧ j ≤ 34 ∧ c.status.getLsbD j = true
    (wakes s.running → ∃ t, exec .wfe s = .next t ∧ OnlyCtl s t s.lastRun
      ∧ t.ctl s.lastRun = s.running.advance { s.running with status := setBit s.running.status 7 false })
    ∧ (¬ wakes s.running → ∃ t, exec .wfe s = .next t ∧ OnlyCtl s t s.lastRun ∧ t.ctl s.lastRun = { s.running with wait := .wfe })
    ∧ (∀ k, (s.ctl k).wait = .wfe → MayWake s k → wakes (s.ctl k) → ∃ t, exec (.wfeWake k) s = .next t ∧ OnlyCtl s t k
      ∧ t.ctl k = (s.ctl k).advance { s.ctl k with status := setBit (s.ctl k).status 7 false })
    ∧ (∀ x, s.running.owner = some x → ∃ t, exec .sev s = .next t ∧ { t with ctls := s.ctls } = s
        ∧ (∀ k, (s.ctl k).owner = some x → k ≠ s.lastRun → t.ctl k = { s.ctl k with status := setBit (s.ctl k).status 7 true })
        ∧ (∀ k, (s.ctl k).owner ≠ some x → t.ctl k = s.ctl k)
        ∧ t.ctl s.lastRun = s.running.advance { s.running with status := setBit s.running.status 7 true })
    ∧ (s.running.owner = none → ∃ t, exec .sev s = .next t ∧ OnlyCtl s t s.lastRun ∧ t.ctl s.lastRun = s.running.advance s.running)

namespace Sys2Proof.Claims

/-- Whether a Bench entry's access may be ordered before a fence of a core (R226): it is the core's own, or its firing has sent its
completion. -/
def benchBefore (s : State) (core : Nat) (b : Bench) : Prop := b.core = core ∨ ∃ f, s.firing? b.fid = some f ∧ f.phase = .sent

end Sys2Proof.Claims

/-- R107, R226, R347: FENCE.engine completes and drains nothing. A wider fence drains the store buffer, so that memory holds what the control core
saw, and completes, but FENCE.system waits while the Bench holds an entry of the context in a state other than 4, on its own core or, on
another core, of a firing that has sent its completion; FENCE_COMPLETE ends that wait.
Readings of the model: log 6. -/
def Obligations.FencesDrainAndWait : Prop :=
  ∀ (s : State), s.Inv →
    let c := s.running
    Leaves .fenceEngine s (c.advance c)
    ∧ (∀ i scope, (i, scope) ∈ [(Instr.fenceCore, 1), (.fenceQuad, 2), (.fenceCluster, 3), (.fenceDie, 4), (.fenceDevice, 5), (.fenceSystem, 6)] →
        ∃ t, exec i s = .next t ∧ OnlyCtlMem s t s.lastRun ∧ (∀ a, t.byteAt a = seenByte s c a)
          ∧ let held : Prop := scope = 6 ∧ ∃ b ∈ s.msys.bench, some b.ctx = c.owner ∧ b.st ≠ 4 ∧ benchBefore s s.lastRun b
            (held → t.ctl s.lastRun = { c with sbuf := [], wait := .fence 6 })
            ∧ (¬ held → t.ctl s.lastRun = c.advance { c with sbuf := [] }))
    ∧ ∀ k scope, (s.ctl k).wait = .fence scope → MayWake s k →
        ¬(scope = 6 ∧ ∃ b ∈ s.msys.bench, some b.ctx = (s.ctl k).owner ∧ b.st ≠ 4 ∧ benchBefore s k b) →
        LeavesAt k (.fenceComplete k) s ((s.ctl k).advance (s.ctl k))

namespace Sys2Proof.Claims

/-- The block's slot i, as its words and side record give it (R65, R109). -/
def blockSlot (b : Block) (core ctx i : Nat) : Option Slot :=
  match b.words[i]?, b.sides[i]? with
  | some w, some sd => some {
      core := core, ctx := ctx, eng := b.eng, slot := b.f + i, word := w, lit0 := sd.extractLsb' 0 64, lit1 := sd.extractLsb' 64 64,
      acc := (sd.extractLsb' 128 2).toNat, ecls := (sd.extractLsb' 130 2).toNat, rm := (sd.extractLsb' 132 3).toNat, brk := sd.getLsbD 135,
      edge := (sd.extractLsb' 136 2).toNat, fen := sd.getLsbD 138, fcol := (sd.extractLsb' 139 6).toNat, sect := b.sect }
  | _, _ => none

/-- Block b stands in the tables of a core for a context, its section is armed, and every other slot and entry is as it was in s. -/
structure Loaded (s t : State) (core ctx : Nat) (b : Block) : Prop where
  slots : ∀ i, i < b.n → t.slot? core ctx b.eng (b.f + i) = blockSlot b core ctx i
  entries : ∀ i, i < b.m → some (t.dest core ctx b.eng (b.d + i)) = b.entries[i]?
  otherSlots : ∀ c x e i, ¬(c = core ∧ x = ctx ∧ e = b.eng ∧ b.f ≤ i ∧ i < b.f + b.n) → t.slot? c x e i = s.slot? c x e i
  otherEntries : ∀ c x e i, ¬(c = core ∧ x = ctx ∧ e = b.eng ∧ b.d ≤ i ∧ i < b.d + b.m) → t.dest c x e i = s.dest c x e i
  armed : ∀ x q, s.ctx? ctx = some x → x.section? b.sect = some q →
    ((t.ctx? ctx).bind fun y => y.section? b.sect) = some { q with active := true, finished := false }
  device : ∀ a, a < 2^48 → t.byteAt a = s.byteAt a

/-- A switching block has been loaded by control core k, which completes; the other sections that it replaces issue no more on any core (R303). -/
structure SwitchedIn (s t : State) (k ctx : Nat) (d : Reg) (b : Block) : Prop where
  loaded : Loaded s t k ctx b
  ctl : t.ctl k = (s.ctl k).advance ((s.ctl k).setReg d 0)
  spent : ∀ y z q, s.cctx? y ctx = some z → q ∈ z.sects → q.sect ∈ s.switched k ctx b → q.sect ≠ b.sect →
    ∃ z', t.cctx? y ctx = some z' ∧ { q with spent := true } ∈ z'.sects

/-- The traps of a block at an address that control core k's GLOAD cannot read (R86, R109): a forbidden byte gives cause 5, an uncorrectable
ECC error cause 7 and the address of 8 bytes in error. -/
def BlockTraps (s : State) (k : Nat) (i : Instr) (x : Word) : Prop :=
  let c := s.ctl k
  let n := blockSize (leWord (s.ctlRead c x 8))
  x.toNat % 32 = 0 → c.hnd = false → MayTouchAll c false x 8 →
    (¬ MayTouchAll c false x n → ∃ e, LeavesAt k i s (c.trap false 5 c.pc e))
    ∧ (MayTouchAll c false x n → (∃ e, Marked s c x n e) →
        ∃ e, Marked s c x n e ∧ LeavesAt k i s (c.trap false 7 c.pc (BitVec.ofNat 64 ((e - coreKey k 0) / 8 * 8))))

end Sys2Proof.Claims

/-- R109, R69, R161, R303: GLOAD of an accepted block writes its slots and entries, arms its section and puts 0 into gd; a rejected block writes
nothing but the status in gd; a misaligned address traps with cause 4, a block that reaches bytes it may not read with cause 5, one with an
uncorrectable ECC error with cause 7. A switching GLOAD waits while a firing of the sections it replaces is in progress on its core; without one
it loads the block at once, marks those sections spent on every core, and completes; GLOAD_SWITCH_WRITE ends the wait: it reads and checks
the block whole as GLOAD does, and does the same, or gives the reason why what now stands there is rejected.
Which destination entries are rejected is the model's reading (log 56: the '0 when' notes of R66 reject nothing).
Readings of the model: logs 36, 42, 56. -/
def Obligations.GloadLoadsOrRejects : Prop :=
  (∀ (s : State) (d a : Reg) (ctx : Nat), s.Inv → s.running.owner = some ctx →
    let c := s.running
    let x := c.reg a
    (x.toNat % 32 ≠ 0 → c.hnd = false → Leaves (.gload d a) s (c.trap false 4 c.pc x))
    ∧ BlockTraps s s.lastRun (.gload d a) x
    ∧ (BlockAt s c x →
        (∀ r i, s.blockReject s.lastRun ctx (s.ctlBlock c x) = some (r, i) →
          Writes (.gload d a) s (one d (BitVec.ofNat 64 (4096 * r + i % 1024))))
        ∧ (s.blockReject s.lastRun ctx (s.ctlBlock c x) = none → (s.ctlBlock c x).sw = false →
            ∃ t, exec (.gload d a) s = .next t ∧ Loaded s t s.lastRun ctx (s.ctlBlock c x)
              ∧ t.ctl s.lastRun = c.advance (c.setReg d 0) ∧ ∀ k, k ≠ s.lastRun → t.ctl k = s.ctl k)))
  ∧ ∀ (s : State) (d a : Reg) (ctx : Nat), s.Inv → s.running.owner = some ctx →
      let c := s.running
      let b := s.ctlBlock c (c.reg a)
      (BlockAt s c (c.reg a) → s.blockReject s.lastRun ctx b = none → b.sw = true → s.inProgress s.lastRun ctx (s.switched s.lastRun ctx b) = true →
        Leaves (.gload d a) s { c with wait := .gloadSwitch d (c.reg a).toNat })
      ∧ (BlockAt s c (c.reg a) → s.blockReject s.lastRun ctx b = none → b.sw = true → s.inProgress s.lastRun ctx (s.switched s.lastRun ctx b) = false →
          ∃ t, exec (.gload d a) s = .next t ∧ SwitchedIn s t s.lastRun ctx d b)
      ∧ ∀ k w x, MayWake s k → (s.ctl k).wait = .gloadSwitch d w → (s.ctl k).owner = some x → s.runs x = true →
          s.inProgress k x (s.switched k x (s.ctlBlock (s.ctl k) (BitVec.ofNat 64 w))) = false →
          let b := s.ctlBlock (s.ctl k) (BitVec.ofNat 64 w)
          let v := BitVec.ofNat 64 w
          BlockTraps s k (.gloadSwitchWrite k) v
          ∧ (BlockAt s (s.ctl k) v → s.blockReject k x b = none → b.sw = true → ∃ t, exec (.gloadSwitchWrite k) s = .next t ∧ SwitchedIn s t k x d b)
          ∧ ∀ r i, BlockAt s (s.ctl k) v → s.blockReject k x b = some (r, i) →
              LeavesAt k (.gloadSwitchWrite k) s ((s.ctl k).advance ((s.ctl k).setReg d (BitVec.ofNat 64 (4096 * r + i % 1024))))

/-- R110, R66, R69: DSET writes the entry that its selector names and puts 0 into gd; a bad selector gives reason 9, an entry that R66 rejects
reason 7 with its number, and then nothing but gd changes. Which entries R66 rejects is the model's reading: its '0 when' notes reject nothing
(log 56). -/
def Obligations.DsetWritesOrRejects : Prop :=
  ∀ (s : State) (d a b : Reg) (ctx : Nat), s.log = [] → s.running.owner = some ctx →
    let c := s.running
    let sel := (c.reg a).toNat
    let bad := sel % 4 = 3 ∨ sel / 256 % 128 = 0 ∨ sel / 256 % 128 = 127 ∨ sel / 4 % 64 ≠ 0 ∨ sel / 32768 ≠ 0
    let e := engOfCode (sel % 4)
    let i := sel / 256 % 128
    (bad → Writes (.dset d a b) s (one d 0x9000))
    ∧ (¬ bad → entryOk (c.reg b) = false → Writes (.dset d a b) s (one d (BitVec.ofNat 64 (0x7000 + i))))
    ∧ (¬ bad → entryOk (c.reg b) = true → ∃ t, exec (.dset d a b) s = .next t ∧ t.dest s.lastRun ctx e i = c.reg b
        ∧ (∀ k x f j, ¬(k = s.lastRun ∧ x = ctx ∧ f = e ∧ j = i) → t.dest k x f j = s.dest k x f j)
        ∧ t.ctl s.lastRun = c.advance (c.setReg d 0) ∧ (∀ k, k ≠ s.lastRun → t.ctl k = s.ctl k)
        ∧ { t with ctls := s.ctls, flow := s.flow } = s ∧ { t.flow with dests := s.flow.dests } = s.flow)

namespace Sys2Proof.Claims

/-- The token an accepted injection sends: its words, with the running context's id and k.seq[15:0] (R111). -/
def injectedToken (ctx : Nat) (seq : Word) (h0 h1 w0 w1 : Word) : Token :=
  let f (lo n : Nat) : Nat := h0.toNat / 2^lo % 2^n
  { core := f 0 9, eng := engOfCode (f 9 2), slot := f 11 9, port := f 20 2, ctx := ctx, col := f 30 6, kind := f 36 3, sect := f 39 8,
    psn := decide (f 47 1 = 1), seq := seq.toNat % 65536, tag := BitVec.ofNat 32 h1.toNat, w0 := w0, w1 := w1 }

/-- A control core's token has gone to the network: it is the last in flight, k.seq has risen by 1 and the instruction is complete; the store
buffer is in memory (R88, R111). A tile of its own scratchpad that it sends to its own core gains a reference, one for another core is
sent with its bytes. -/
structure Injected (s t : State) (k : Nat) (tok : Token) : Prop where
  sent : ∃ nt, t.flow.net = s.flow.net ++ [nt] ∧ nt.tok = tok ∧ nt.srcCore = k ∧ nt.srcEng = .c ∧ nt.toDev = none
    ∧ nt.body = if (tok.kind = 0 ∨ tok.kind = 5) ∧ tok.core ≠ k then some (t.tileBytes k (Desc.ofWords tok.w0 tok.w1)) else none
  refs : t.flow.allocs = s.flow.allocs.map fun a =>
    if (tok.kind = 0 ∨ tok.kind = 5) ∧ tok.core = k ∧ a.core = k ∧ a.idx = (Desc.ofWords tok.w0 tok.w1).alloc then { a with refs := a.refs + 1 } else a
  flow : { t.flow with net := s.flow.net, allocs := s.flow.allocs } = s.flow
  ctl : t.ctl k = (s.ctl k).advance { s.ctl k with sbuf := [], seq := (s.ctl k).seq + 1 }
  bytes : ∀ a, t.byteAt a = seenByte s (s.ctl k) a
  others : ∀ j, j ≠ k → t.ctl j = s.ctl j
  rest : { t with ctls := s.ctls, flow := s.flow, mem := s.mem, ecc := s.ecc } = s

end Sys2Proof.Claims

/-- R111, R112, R88: INJ and INJP send their token once the network takes it, with the running context's id and k.seq in it, and k.seq rises by 1; a
tile for the own core gains a reference, one for another core takes its bytes along; until
then they wait, and INJ_ACCEPT completes them. A token that breaks a rule is rejected with cause 11 and the lowest reason; nothing is sent
and k.seq stays.
Readings of the model: log 22. -/
def Obligations.InjectionsSendOneToken : Prop :=
  (∀ (s : State), s.Inv →
    (∀ (i : Instr) (p : Bool) (h0 h1 w0 w1 : Word) (ctx : Nat), injectedOf i s.running = some (p, h0, h1, w0, w1) → Instr.wf i = true →
      s.running.owner = some ctx → injectReason s s.lastRun ctx p h0 h1 w0 w1 = none →
      let tok := injectedToken ctx s.running.seq h0 h1 w0 w1
      (s.netTakes s.lastRun tok = true → ∃ t, exec i s = .next t ∧ Injected s t s.lastRun tok)
      ∧ (s.netTakes s.lastRun tok = false → Leaves i s { s.running with wait := .inject tok }))
    ∧ ∀ k tok, (s.ctl k).wait = .inject tok → MayWake s k → s.netTakes k tok = true →
        ∃ t, exec (.injAccept k) s = .next t ∧ Injected s t k tok)
  ∧ ∀ (i : Instr) (s : State) (p : Bool) (h0 h1 w0 w1 : Word) (ctx r : Nat), s.log = [] → s.running.hnd = false →
      injectedOf i s.running = some (p, h0, h1, w0, w1) → Instr.wf i = true → s.running.owner = some ctx →
      injectReason s s.lastRun ctx p h0 h1 w0 w1 = some r →
      Leaves i s (s.running.trap false 11 s.running.pc (BitVec.ofNat 64 r))

namespace Sys2Proof.Claims

/-- The words of a token as TRECV gives them (R70, R71, R113). -/
def tokenWord (t : Token) : Nat → Word
  | 0 => BitVec.ofNat 64 (t.core % 512 + engCode t.eng * 2^9 + t.slot % 512 * 2^11 + t.port % 4 * 2^20 + t.ctx % 256 * 2^22 + t.col % 64 * 2^30
      + t.kind % 8 * 2^36 + t.sect % 256 * 2^39 + t.psn.toNat * 2^47 + t.seq % 65536 * 2^48)
  | 1 => t.tag.zeroExtend 64
  | 2 => t.w0
  | _ => t.w1

/-- A control core has received its oldest token into the group at d: the token left the queue, its tile is held, and the tile held before is
released (R13, R113). -/
structure Received (s t : State) (k : Nat) (d : Reg) (tok : Token) (rest : List Token) : Prop where
  regs : ∀ r, (t.ctl k).reg r = if r = 0 then 0
    else if d.toNat ≤ r.toNat ∧ r.toNat < d.toNat + 4 then tokenWord tok (r.toNat - d.toNat) else (s.ctl k).reg r
  queue : (t.ctl k).rq = rest
  held : (t.ctl k).lastTile = if tok.kind = 0 ∨ tok.kind = 5 then some (Desc.ofWords tok.w0 tok.w1).alloc else none
  pc : (t.ctl k).pc = ((s.ctl k).advance (s.ctl k)).pc
  same : { t.ctl k with regs := (s.ctl k).regs, rq := (s.ctl k).rq, lastTile := (s.ctl k).lastTile } = (s.ctl k).advance (s.ctl k)
  others : ∀ j, j ≠ k → t.ctl j = s.ctl j
  bytes : ∀ a, t.byteAt a = s.byteAt a
  released : t.flow = match (s.ctl k).lastTile with
    | some i => (s.release k i).flow
    | none => s.flow
  frame : { t with ctls := s.ctls, flow := s.flow } = s

end Sys2Proof.Claims

/-- R113: TRECV takes the oldest token of the receive queue into its four registers, or waits; TRECV_RETURN ends that wait when a token has come. -/
def Obligations.TrecvTakesTheOldestToken : Prop :=
  ∀ (s : State) (d : Reg), s.log = [] → Instr.wf (.trecv d) = true →
    (s.running.rq = [] → Leaves (.trecv d) s { s.running with wait := .trecv d })
    ∧ (∀ tok rest, s.running.rq = tok :: rest → ∃ t, exec (.trecv d) s = .next t ∧ Received s t s.lastRun d tok rest)
    ∧ ∀ k tok rest, (s.ctl k).wait = .trecv d → MayWake s k → (s.ctl k).rq = tok :: rest →
        ∃ t, exec (.trecvReturn k) s = .next t ∧ Received s t k d tok rest

namespace Sys2Proof.Claims

/-- A command has completed: its status word is written at the start of its block, at once in private SRAM, through the store buffer in
scratchpad, and no other control core and no other byte of control-core address space has changed (R88, R237). -/
structure Answered (s t : State) (x : Word) (status : Nat) : Prop where
  ctl : t.ctl s.lastRun = s.running.advance { s.running with
    sbuf := if isScratch x then s.running.sbuf ++ [⟨coreKey s.lastRun x.toNat, leBytes 8 status⟩] else s.running.sbuf }
  word : isSram x = true → ∀ j, j < 8 → t.byteAt (coreKey s.lastRun x.toNat + j) = (BitVec.ofNat 64 status).extractLsb' (8 * j) 8
  others : ∀ j, j ≠ s.lastRun → t.ctl j = s.ctl j

/-- What a command leaves alone beside memory and the object system. -/
structure CommandFrame (s t : State) (x : Word) : Prop where
  own : ∀ a, 2^48 ≤ a → ¬(isSram x = true ∧ coreKey s.lastRun x.toNat ≤ a ∧ a < coreKey s.lastRun x.toNat + 8) → t.byteAt a = s.byteAt a
  parts : t.cores = s.cores ∧ t.flow = s.flow ∧ t.ctxs = s.ctxs

/-- A handle operand is in range and its table page present (R237 reasons 1 and 2). -/
def HandleOk (s : State) (w : Word) : Prop := w.toNat < 2^24 ∧ w ≠ 0 ∧ w.toNat < s.msys.objCount ∧ ¬(w.toNat / 32 ∈ s.msys.absentPages)

/-- A command is rejected: its status word holds the reason and the index, and no record, no byte of device memory, no counter and nothing
queued at a hub changes (R237). -/
def Refuses (i : Instr) (s : State) (x : Word) (reason index : Nat) : Prop :=
  ∃ t, exec i s = .next t ∧ Answered s t x (4096 * reason + index % 1024) ∧ CommandFrame s t x ∧ t.msys = s.msys ∧ t.host = s.host
    ∧ ∀ k, k < 2^48 → t.byteAt k = s.byteAt k

/-- What the post of a counter word leaves of the bytes m of device memory (R236, R254): the element that it names is one more, unless the sum
would leave 64 bits. -/
def posted (s : State) (w : Word) (m : Nat → Byte) (k : Nat) : Byte :=
  match s.obj? (handleOf w) with
  | some r =>
    let a := r.base + 8 * (w.toNat / 2^24 % 2^24)
    let old := leNat ((List.range 8).map fun j => m (a + j))
    if handleOf w ≠ 0 ∧ a ≤ k ∧ k < a + 8 ∧ old + 1 < 2^64 then (BitVec.ofNat 64 (old + 1)).extractLsb' (8 * (k - a)) 8 else m k
  | none => m k

/-- The counter word of a command block. -/
def counterAt (s : State) (x : Word) : Word := leWord (s.ctlRead s.running (x + 8) 8)

end Sys2Proof.Claims

/-- R236 to R239, R208: ORINV and ORMOV of a record that is not invalid are queued at the object's hub with their counter and answer status 0; no byte
of device memory changes. ORSET of an invalid handle whose hub is idle installs the record with the next generation in GEN and IGEN, and of a
resident or sparse one changes PERM, PPEND, RM and SAT. The commands reject a handle outside the table with reason 1 and one of an absent page
with reason 2; ORSET a field with reason 3 and the least index of those rejected; a state or owner that does not allow the command with
reason 4 and STATE; ORMOV its destination with reason 5; and a counter word with reason 6. Which index some fields have is the model's
choice (log 93).
Readings of the model: logs 18, 43, 93. -/
def Obligations.ObjectCommandsAreTaken : Prop :=
  (∀ (s : State) (a b : Reg) (ctx : Nat), s.Inv → s.running.owner = some ctx → CommandAt s (s.running.reg b) 64 → HandleOk s (s.running.reg a) →
    let x := s.running.reg b
    let h := (s.running.reg a).toNat
    let p := s.projected h
    let q (op : HubOp) : HubCmd := { handle := h, op := op, counter := counterAt s x, ctx := ctx, fid := none, performed := false, oldGen := 0, readers := [] }
    s.counterWordOk ctx (counterAt s x) = true →
    (p.st ≠ 0 → ∃ t, exec (.orinv a b) s = .next t ∧ Answered s t x 0 ∧ CommandFrame s t x ∧ t.msys = { s.msys with hub := s.msys.hub ++ [q .orinv] }
        ∧ ∀ k, k < 2^48 → t.byteAt k = s.byteAt k)
    ∧ let dst := leNat (s.ctlRead s.running (x + 16) 8)
      (p.st = 1 → p.owner = s.devId → dst % 512 = 0 → assigned dst p.footprint = true → overlap dst p.footprint p.base p.footprint = false →
        ∃ t, exec (.ormov a b) s = .next t ∧ Answered s t x 0 ∧ CommandFrame s t x ∧ t.msys = { s.msys with hub := s.msys.hub ++ [q (.ormov dst)] }
          ∧ ∀ k, k < 2^48 → t.byteAt k = s.byteAt k))
  ∧ ∀ (s : State) (a b : Reg) (ctx : Nat), s.Inv → s.running.owner = some ctx →
      let x := s.running.reg b
      let w := BitVec.ofNat 1024 (leNat (s.ctlRead s.running (x + 64) 128))
      let h := (s.running.reg a).toNat
      let g := (((s.obj? h).map (·.gen)).getD 0 + 1) % 65536
      (CommandAt s x 192 → HandleOk s (s.running.reg a) → recordFaults s.devId w = [] →
        barrierFaults ctx (((s.ctx? ctx).map (·.groups)).getD []) (ObjRec.ofBits w) = [] → ((s.obj? h).map (·.st)).getD 0 = 0 →
        (∀ q ∈ s.msys.hub, q.handle ≠ h) → (∀ q ∈ s.msys.relocs, q.handle ≠ h) → s.counterWordOk ctx (counterAt s x) = true →
        ∃ t, exec (.orset a b) s = .next t ∧ t.obj? h = some { ObjRec.ofBits w with gen := g, igen := g }
          ∧ (∀ k, k ≠ h → t.obj? k = s.obj? k) ∧ Answered s t x 0)
      ∧ (let p := s.projected h
         let n := ObjRec.ofBits w
         let faults := recordFaults s.devId w ++ barrierFaults ctx (((s.ctx? ctx).map (·.groups)).getD []) n
         let ok := p.st = 0 ∨ ((p.st = 1 ∨ p.st = 2) ∧ p.updates n = true)
         CommandAt s x 192 → HandleOk s (s.running.reg a) →
          (∀ f ∈ faults, (∀ j ∈ faults, f ≤ j) → Refuses (.orset a b) s x 3 f)
          ∧ (faults = [] → ¬ ok → Refuses (.orset a b) s x 4 (s.stateNow h))
          ∧ (faults = [] → ok → s.counterWordOk ctx (counterAt s x) = false → Refuses (.orset a b) s x 6 0)
          ∧ (faults = [] → ok → s.counterWordOk ctx (counterAt s x) = true → (∀ q ∈ s.msys.hub, q.handle ≠ h) → ∀ r, s.obj? h = some r → r.st ≠ 0 →
              ∃ t, exec (.orset a b) s = .next t ∧ Answered s t x 0 ∧ (∀ k, k ≠ h → t.obj? k = s.obj? k)
                ∧ t.obj? h = some { r with perm := n.perm, ppend := n.ppend, rm := n.rm, sat := n.sat }))
      ∧ (let p := s.projected h
         let dst := leNat (s.ctlRead s.running (x + 16) 8)
         let bad := dst % 512 ≠ 0 ∨ assigned dst p.footprint = false ∨ overlap dst p.footprint p.base p.footprint = true
         CommandAt s x 64 → HandleOk s (s.running.reg a) →
          (p.st = 0 → Refuses (.orinv a b) s x 4 (s.stateNow h))
          ∧ (p.st ≠ 0 → s.counterWordOk ctx (counterAt s x) = false → Refuses (.orinv a b) s x 6 0)
          ∧ (p.st ≠ 1 ∨ p.owner ≠ s.devId → Refuses (.ormov a b) s x 4 (s.stateNow h))
          ∧ (p.st = 1 → p.owner = s.devId → bad → Refuses (.ormov a b) s x 5 0)
          ∧ (p.st = 1 → p.owner = s.devId → ¬ bad → s.counterWordOk ctx (counterAt s x) = false → Refuses (.ormov a b) s x 6 0))
      ∧ ∀ i, (i = .orset a b ∨ i = .orinv a b ∨ i = .ormov a b ∨ i = .orres a b) → CommandAt s x 576 →
          (2^24 ≤ (s.running.reg a).toNat ∨ s.running.reg a = 0 ∨ s.msys.objCount ≤ h → ∃ t, exec i s = .next t ∧ Answered s t x 0x1000 ∧ CommandFrame s t x ∧ t.msys = s.msys)
          ∧ (h < 2^24 → s.running.reg a ≠ 0 → h < s.msys.objCount → h / 32 ∈ s.msys.absentPages →
              ∃ t, exec i s = .next t ∧ Answered s t x 0x2000 ∧ CommandFrame s t x ∧ t.msys = s.msys)

/-- R236 to R238, R241: ORRES of a sparse record of this device writes its entries, which it has checked, from its first block on, and answers status
0; its counter is posted at once where no access that has read a replaced entry is outstanding, else the command stays at the hub with
those accesses (the claim about the counter is of one that is not relocating). While other commands wait for the object it joins them at the hub,
with its entries, and waits. A record that is not sparse or not this device's is rejected with reason 4, a count or a run of blocks outside the
limits with reason 5 and index 0, a rejected entry with reason 5 and the number of the first, a counter word with reason 6.
Readings of the model: log 18. -/
def Obligations.OrresWritesResidency : Prop :=
  ∀ (s : State) (a b : Reg) (ctx : Nat) (es : List Word), s.Inv → s.running.owner = some ctx →
    let c := s.running
    let x := c.reg b
    let h := (c.reg a).toNat
    let p := s.projected h
    let first := leNat (s.ctlRead c (x + 16) 8)
    let n := leNat (s.ctlRead c (x + 24) 8)
    let w := counterAt s x
    let readers := s.mapReaders h first n
    let q : HubCmd := { handle := h, op := .orres s.lastRun first es s.nextId, counter := w, ctx := ctx, fid := none, performed := false, oldGen := 0,
                        readers := [] }
    let written (k : Nat) : Byte := if p.base + 8 * first ≤ k ∧ k < p.base + 8 * (first + n)
      then (es.getD ((k - p.base - 8 * first) / 8) 0).extractLsb' (8 * ((k - p.base - 8 * first) % 8)) 8 else s.byteAt k
    (CommandAt s x 64 → HandleOk s (c.reg a) → ¬(1 ≤ n ∧ n ≤ 64) →
      Refuses (.orres a b) s x (if p.st ≠ 2 ∨ p.owner ≠ s.devId then 4 else 5) (if p.st ≠ 2 ∨ p.owner ≠ s.devId then s.stateNow h else 0))
    ∧ (1 ≤ n → n ≤ 64 → CommandAt s x (64 + 8 * n) → HandleOk s (c.reg a) →
      es.length = n → (∀ i, i < n → es[i]? = some (leWord (s.ctlRead c (x + BitVec.ofNat 64 (64 + 8 * i)) 8))) →
      (p.st ≠ 2 ∨ p.owner ≠ s.devId → Refuses (.orres a b) s x 4 (s.stateNow h))
      ∧ (p.st = 2 → p.owner = s.devId →
        (p.blocks < first + n → Refuses (.orres a b) s x 5 0)
        ∧ (first + n ≤ p.blocks → (∀ i e, es[i]? = some e → entryRejected s.devId p e = true →
            (∀ j f, j < i → es[j]? = some f → entryRejected s.devId p f = false) → Refuses (.orres a b) s x 5 i)
          ∧ ((∀ e ∈ es, entryRejected s.devId p e = false) → s.counterWordOk ctx w = false → Refuses (.orres a b) s x 6 0)
          ∧ ((∀ e ∈ es, entryRejected s.devId p e = false) → s.counterWordOk ctx w = true →
            ((∀ q ∈ s.msys.hub, q.handle ≠ h) → (∀ q ∈ s.msys.relocs, q.handle ≠ h ∧ q.handle ≠ handleOf w) →
              (∀ r, handleOf w ≠ 0 → s.obj? (handleOf w) = some r → r.base + 8 * (w.toNat / 2^24 % 2^24) + 8 ≤ 2^48) →
              ∃ t, exec (.orres a b) s = .next t ∧ Answered s t x 0
                ∧ t.msys.hub = (if readers = [] then s.msys.hub else s.msys.hub ++ [{ q with performed := true, readers := readers }])
                ∧ ∀ k, k < 2^48 → t.byteAt k = if readers = [] then posted s w written k else written k)
            ∧ ((∃ q ∈ s.msys.hub, q.handle = h) → ∃ t, exec (.orres a b) s = .next t ∧ t.ctl s.lastRun = { c with wait := .orres h x s.nextId }
              ∧ t.nextId = s.nextId + 1 ∧ t.msys = { s.msys with hub := s.msys.hub ++ [q] }
              ∧ (∀ k, k ≠ s.lastRun → t.ctl k = s.ctl k) ∧ { t with ctls := s.ctls, msys := s.msys, nextId := s.nextId } = s)))))

/-- R278, R279: LNCH of an accepted record queues it for the scheduler with the context's partition and its priority as the cap, and returns its
launch id in gd[63:32]; while the queue holds 16 it waits, and LNCH_ACCEPT completes it; a rejected record gives its reason, and one that a
recoverable fault keeps from being read reason 1, which is the model's choice (log 72).
Readings of the model: logs 46, 72, 97. -/
def Obligations.LnchQueuesALaunch : Prop :=
  ∀ (s : State) (d a : Reg) (ctx : Nat) (cx : Ctx), s.log = [] → s.ctx? ctx = some cx →
    let c := s.running
    let rec_ := s.launchRecord ctx (handleOf (c.reg a)) ((c.reg a).toNat / 2^24)
    let full := 16 ≤ (s.host.ctxLaunches.filter fun q => q.1 == ctx && !q.2.ended).length
    let req (places : List Nat) : LaunchReq := { places := places, parent := some ctx, ended := false, partMask := cx.part, cap := cx.prio, queue := none }
    let queued (k : Nat) (d : Reg) (places : List Nat) (t : State) : Prop :=
      t.host = { s.host with ctxLaunches := s.host.ctxLaunches ++ [(ctx, req places)] }
        ∧ t.ctl k = (s.ctl k).advance ((s.ctl k).setReg d (BitVec.ofNat 64 (leNat (s.read (places.headD 0 + 8) 8) % 2^32 * 2^32)))
        ∧ (∀ j, j ≠ k → t.ctl j = s.ctl j) ∧ { t with host := s.host, ctls := s.ctls } = s
    (c.owner = some ctx →
      (∀ r, rec_ = .rejected r → Writes (.lnch d a) s (one d (BitVec.ofNat 64 (4096 * r))))
      ∧ (∀ q, rec_ = .unreadable q → Writes (.lnch d a) s (one d 0x1000))
      ∧ (∀ places, rec_ = .at places → ¬ full → ∃ t, exec (.lnch d a) s = .next t ∧ queued s.lastRun d places t)
      ∧ (∀ places, rec_ = .at places → full → Leaves (.lnch d a) s { c with wait := .launch d places }))
    ∧ ∀ k places, (s.ctl k).owner = some ctx → (s.ctl k).wait = .launch d places → MayWake s k → ¬ full →
        ∃ t, exec (.lnchAccept k) s = .next t ∧ queued k d places t

namespace Sys2Proof.Claims

/-- An instruction answers a next state in which p holds. -/
def Answers (i : Instr) (s : State) (p : State → Prop) : Prop := ∃ t, exec i s = .next t ∧ p t

/-! ### Operators: issuing a firing (R19, R116, R161, R164, R176) -/

/-- The firing f of slot sl, which holds the word of i, is the one being issued, and no declared data port brought EOS (R24, R26). -/
structure Issuing (i : Instr) (s : State) (f : Firing) (sl : Slot) (y : CoreCtx) (x : Ctx) : Prop where
  inv : s.Inv
  firing : s.firing = some f
  slot : s.slot? f.core f.ctx f.eng f.slot = some sl
  core : s.cctx? f.core f.ctx = some y
  ctx : s.ctx? f.ctx = some x
  word : encode i = some sl.word
  op : f.op = wordOp sl.word
  noEos : (sl.declares 0 && isEos f.a) = false ∧ (sl.declares 1 && isEos f.b) = false
  data : f.eos = false
  fresh : s.firing? f.id = none

/-- The data tokens of a firing have tiles with legal descriptors (R11, R72) and no uncorrectable ECC error. -/
def SoundTiles (s : State) (f : Firing) : Prop :=
  ∀ t ∈ f.a.toList ++ f.b.toList, t.isTile = true → t.desc.fieldsOk = true ∧ s.tileEcc f.core t = false

/-- No data token of a firing is poison. -/
def NoPoison (f : Firing) : Prop := ∀ t ∈ f.a.toList ++ f.b.toList, t.isPoison = false

/-- The colour and tag that the tag action gives (R164), where it neither faults nor waits for a colour (R166). -/
structure Outgoing (o : OpFields) (f : Firing) (sl : Slot) (y : CoreCtx) (x : Ctx) (asks : Bool) (col : Nat) (tag : BitVec 32) : Prop where
  free : asks = true ∨ o.tag = 6 → f.got.isSome = true ∨ (y.freeColour x.cols).isSome = true
  held : o.tag = 7 → f.col = 0 ∨ y.held f.col = true
  action : tagAction x.tagfmt x.cols o.tag.toNat sl.lit1 ((f.got.or (y.freeColour x.cols)).getD 0) f.col f.tag = .inr (col, tag)

/-- A result as the rule gives it, and as the firing holds it: a new tile has been placed in scratchpad with its bytes (R10, R12, R72), or
still waits for space. -/
inductive HeldAs (t : State) (core : Nat) : OutVal → OutVal → Prop where
  | same (v : OutVal) : HeldAs t core v v
  | placed (desc d : Word) (bs : List Byte) (p : Bool)
      (shape : { Desc.ofWords d 0 with addr := 0, alloc := 0 } = { Desc.ofWords desc 0 with addr := 0, alloc := 0 })
      (bytes : ∀ r ∈ planeRanges (Desc.ofWords desc 0), ∀ j b, j < r.2 → bs[r.1 + j]? = some b →
        t.byteAt (scratchKey core ((Desc.ofWords d 0).addr + r.1 + j)) = b) :
      HeldAs t core (.newTile desc bs p) (.tile d 0 p)

/-- The ck before a firing on M whose core holds another context's sets (R119). -/
def swapCk (s : State) (core ctx : Nat) (y : CoreCtx) : Nat :=
  match (s.flow.holder.find? fun q => q.1 == core).map (·.2) with
  | some h => if h = ctx then 0 else if y.everInM then 160 else 80
  | none => if y.everInM then 80 else 0

/-- The ck of the swap before a firing: on M of any operator, on the other engines none (R119). -/
def swapOf (s : State) (f : Firing) (y : CoreCtx) : Nat := if f.eng = .m then swapCk s f.core f.ctx y else 0

/-- The firing f has issued: it is among the firings with its colour, tag, results and memory work, its occupancy begins in this ck, or on M
after the swap that brings its context's sets there (R119), its cost times 4^ECLS is debited, an excess becomes shortfall, and its section's
count rises by 1. -/
structure Issued (s t : State) (f : Firing) (sl : Slot) (y : CoreCtx) (cost occ : Nat) (outs : List Out) (job : Job) (col : Nat) (tag : BitVec 32) : Prop where
  firing : ∃ g ∈ t.flow.firings, g.id = f.id ∧ g.outCol = col ∧ g.outTag = tag ∧ g.job = job ∧ g.due = s.ck + swapOf s f y + occ
    ∧ g.outs.map (fun r => (r.codes, r.col, r.tag)) = outs.map (fun r => (r.codes, r.col, r.tag))
    ∧ List.Forall₂ (HeldAs t f.core) (outs.map (·.val)) (g.outs.map (·.val))
  energy : ∃ y', t.cctx? f.core f.ctx = some y' ∧ y'.ebudget = y.ebudget - cost * 4^sl.ecls
    ∧ y'.shortfall = y.shortfall + (cost * 4^sl.ecls - y.ebudget)
    ∧ (y'.sects.find? fun q => q.sect == f.sect).map (·.count) = (y.sects.find? fun q => q.sect == f.sect).map (·.count + 1)
  chosen : t.firing = none
  issued : (f.core, f.eng, s.ck) ∈ t.flow.issued
  holder : f.eng = .m → (f.core, f.ctx) ∈ t.flow.holder

/-- An operator issues with a cost, an occupancy, results and memory work, and `also` holds then, for every outgoing colour and tag. -/
def Sends (i : Instr) (s : State) (f : Firing) (sl : Slot) (y : CoreCtx) (x : Ctx) (asks : Bool) (cost occ : Nat)
    (outs : Nat → BitVec 32 → List Out) (job : Job) (also : State → Prop) : Prop :=
  ∀ col tag, Outgoing (wordFields sl.word) f sl y x asks col tag →
    ∃ t, exec i s = .next t ∧ Issued s t f sl y cost occ (outs col tag) job col tag ∧ also t

/-! ### V (R136 to R158) -/

/-- The tiles a V firing computes, with their destination codes, its occupancy and the rows it is charged for (R142). -/
structure Tiles where
  outs : List (List Nat × Tile)
  occ : Nat
  cost : Nat

/-- The results of tiles. -/
def Tiles.sent (r : Tiles) (col : Nat) (tag : BitVec 32) : List Out :=
  r.outs.map fun q => { codes := q.1, val := .newTile (q.2.desc false) q.2.bytes false, col := col, tag := tag }

/-- The poison-tiles of the same shapes (R140). -/
def Tiles.poisoned (r : Tiles) (col : Nat) (tag : BitVec 32) : List Out :=
  r.outs.map fun q => { codes := q.1, val := .newTile (q.2.desc true) [] true, col := col, tag := tag }

/-- Row by row, element (i, j) of r rows and c columns. -/
def grid {α : Type} (r c : Nat) (g : Nat → Nat → α) : List α := (List.range r).flatMap fun i => (List.range c).map (g i)

/-- Element (i, j) of an operand from element `off` of its tile on; a single row or column stands for every one (R138), a scalar for
every element (R137). -/
def valAt (s : State) (core : Nat) (o : Operand) (off i j : Nat) : Val :=
  match o with
  | .tile t => ((s.tile core t).vals[off + (if t.desc.rows = 1 then 0 else i) * t.desc.cols + (if t.desc.cols = 1 then 0 else j)]?).getD (.zero false)
  | o => o.float.1

/-- The same as an integer (R151). -/
def intAt (s : State) (core : Nat) (o : Operand) (i j : Nat) : Int :=
  match o with
  | .tile _ => (valAt s core o 0 i j).toInt64.1
  | o => o.int

/-- The stored element (i, j) of a tile operand. -/
def elemAt (s : State) (core : Nat) (t : Token) (i j : Nat) : Elem :=
  ((s.tile core t).elems[(if t.desc.rows = 1 then 0 else i) * t.desc.cols + (if t.desc.cols = 1 then 0 else j)]?).getD ⟨false, 0, 0⟩

/-- The operands of a V operator: A from port a or b, B from a port, a literal, zero or iter (R136). -/
def opA (f : Firing) (sl : Slot) (o : OpFields) : Operand := operand f sl [0, 1] o.srcA
/-- Operand B. -/
def opB (f : Firing) (sl : Slot) (o : OpFields) : Operand := operand f sl [0, 1, 2, 3, 5, 6] o.srcB

/-- A two-operand V operator at ⌈r / 4⌉ ck, charged for the larger row count of operands and result (R138, R142): `ok` says which operands it
takes, `mk` the result tile of r rows and c columns. -/
def twoTiles (f : Firing) (sl : Slot) (o : OpFields) (ok : Operand → Operand → Bool) (mk : Operand → Operand → Nat → Nat → Tile) : Option Tiles :=
  let a := opA f sl o
  let b := opB f sl o
  (joinDims a.dims b.dims).bind fun q =>
    if a.ok && b.ok && (a.isTile || b.isTile) && ok a b then
      some { outs := [(opDests o, mk a b q.1 q.2)], occ := (q.1 + 3) / 4, cost := max q.1 (max a.tileRows b.tileRows) }
    else none

/-- A one-operand V operator at `occ` of its rows: a tile of one of some TKINDs. -/
def oneTile (f : Firing) (sl : Slot) (o : OpFields) (kinds : List Nat) (occ : Nat → Nat) (mk : Token → Nat → Nat → Tile) : Option Tiles :=
  match opA f sl o with
  | .tile t =>
    if o.srcB = 5 ∧ kinds.contains t.desc.kind = true then
      some { outs := [(opDests o, mk t t.desc.rows t.desc.cols)], occ := occ t.desc.rows, cost := t.desc.rows }
    else none
  | _ => none

/-- Dense, half-digit and mask tiles. -/
def real (a b : Operand) : Bool := a.kindIn [0, 1, 2] && b.kindIn [0, 1, 2]

/-- The tile of an element-by-element operator. -/
def eachTile (s : State) (core : Nat) (g : Val → Val → Val) (a b : Operand) (r c : Nat) : Tile :=
  xfTile r c (grid r c fun i j => g (valAt s core a 0 i j) (valAt s core b 0 i j))

/-- Real and imaginary parts apart (R145 VADD, VSUB). -/
def complexTile (s : State) (core : Nat) (g : Val → Val → Val) (a b : Operand) (r c : Nat) : Tile :=
  let part (o : Operand) : Nat := o.dims.1 * o.dims.2
  complexXf r c ((grid r c fun i j => g (valAt s core a 0 i j) (valAt s core b 0 i j))
    ++ grid r c fun i j => g (valAt s core a (part a) i j) (valAt s core b (part b) i j))

/-- Both operands are complex tiles. -/
def complex (a b : Operand) : Bool := a.isTile && b.isTile && a.kindIn [3] && b.kindIn [3]

/-- An element with its sign replaced; a NaN becomes the canonical one (R139). -/
def signed (t : Tile) (e : Elem) (sg : Bool) : Elem := if (Elem.val t.e16 t.p e).isNaN then nanElem t.e16 t.p else { e with s := sg }

/-- The float operators of V (R145, R147). -/
def floatTiles (i : Instr) (s : State) (f : Firing) (sl : Slot) (y : CoreCtx) : Option Tiles :=
  let m := fireMode y sl
  let sum (p q : Val) : Val := (roundXf m (addVal m p q).1).1
  let fma (c : Val) (p q : Val) : Val := (roundXf m (addVal m (mulVal p q).1 c).1).1
  let c := (decodeFp64 sl.lit1).1
  let two (o : OpFields) (g : Val → Val → Val) : Option Tiles := twoTiles f sl o real (eachTile s f.core g)
  let one (o : OpFields) (rate : Nat) (g : Val → Val) : Option Tiles :=
    oneTile f sl o [0, 1, 2] (fun r => (r + rate - 1) / rate) fun t r c => xfTile r c (grid r c fun i j => g (valAt s f.core (.tile t) 0 i j))
  let withSigns (o : OpFields) (kinds : List Nat) (g : Bool → Bool) : Option Tiles :=
    oneTile f sl o kinds (fun r => (r + 3) / 4) fun t r c =>
      let tl := s.tile f.core t
      if t.desc.kind = 0 ∨ t.desc.kind = 3 then { tl with elems := tl.elems.map fun e => signed tl e (g e.s) }
      else xfTile r c (grid r c fun i j => let v := valAt s f.core (.tile t) 0 i j; v.withSign (g v.sign))
  match i with
  | .vadd o => (two o sum).or (twoTiles f sl o complex (complexTile s f.core sum))
  | .vsub o => (two o fun p q => sum p q.neg).or (twoTiles f sl o complex (complexTile s f.core fun p q => sum p q.neg))
  | .vmul o => two o fun p q => (roundXf m (mulVal p q).1).1
  | .vfma o => two o (fma c)
  | .vfms o => two o (fma c.neg)
  | .vdiv o => (two o fun p q => (vdiv m p q).1).map fun r => { r with occ := (r.outs.map (·.2.rows)).headD 0 }
  | .vmax o => two o fun p q => p.max q
  | .vmin o => two o fun p q => p.min q
  | .vsqrt o => one o 1 fun v => (vsqrt m v).1
  | .vrcp o => one o 2 fun v => (vrcp m v).1
  | .vrsq o => one o 2 fun v => (vrsq m v).1
  | .vexp o => one o 2 fun v => (vexp m v).1
  | .vexp2 o => one o 2 fun v => (vexp2 m v).1
  | .vlog2 o => one o 2 fun v => (vlog2 m v).1
  | .vtanh o => one o 2 fun v => (vtanh m v).1
  | .vsigm o => one o 2 fun v => (vsigm m v).1
  | .vabs o => withSigns o [0, 1, 2] fun _ => false
  | .vneg o => withSigns o [0, 1, 2, 3] fun b => !b
  | .vcps o => twoTiles f sl o real fun a b r c =>
      let sg (i j : Nat) : Bool := (valAt s f.core b 0 i j).sign
      match a with
      | .tile t =>
        let tl := s.tile f.core t
        if t.desc.kind = 0 then { tl with rows := r, cols := c, elems := grid r c fun i j => signed tl (elemAt s f.core t i j) (sg i j) }
        else xfTile r c (grid r c fun i j => (valAt s f.core a 0 i j).withSign (sg i j))
      | a => xfTile r c (grid r c fun i j => (valAt s f.core a 0 i j).withSign (sg i j))
  | .vsclx o => twoTiles f sl o (fun a b => a.isTile && a.kindIn [0] && b.kindIn [0, 1, 2]) fun a b r c =>
      xfTile r c (grid r c fun i j => (scaleVal m (valAt s f.core a 0 i j) (intAt s f.core b i j)).1)
  | _ => none

/-- Compares, selection, integers and conversion (R148 to R152). -/
def otherTiles (i : Instr) (s : State) (f : Firing) (sl : Slot) (y : CoreCtx) : Option Tiles :=
  let cmp (o : OpFields) (g : Option Ordering → Bool) : Option Tiles :=
    twoTiles f sl o real fun a b r c => maskTile r c (grid r c fun i j => g (Val.cmp (valAt s f.core a 0 i j) (valAt s f.core b 0 i j)))
  let int (o : OpFields) (logic : Bool) (g : Word → Word → Word) : Option Tiles :=
    twoTiles f sl o real fun a b r c =>
      let z (i j : Nat) : Int := (g (BitVec.ofInt 64 (intAt s f.core a i j)) (BitVec.ofInt 64 (intAt s f.core b i j))).toInt
      if logic && a.isTile && b.isTile && a.kindIn [2] && b.kindIn [2] then maskTile r c (grid r c fun i j => decide (z i j ≠ 0))
      else intTile r c (grid r c z)
  match i with
  | .vcmpEq o => cmp o fun q => q == some .eq
  | .vcmpNe o => cmp o fun q => q != some .eq
  | .vcmpLt o => cmp o fun q => q == some .lt
  | .vcmpLe o => cmp o fun q => q == some .lt || q == some .eq
  | .vcmpUn o => cmp o fun q => q == none
  | .vselm o =>
    if o.srcB = 0 ∨ o.srcB = 1 then
      twoTiles f sl o (fun a b => a.isTile && b.isTile && a.kindIn [2] && b.kindIn [0]) fun a b r c =>
        xfTile r c (grid r c fun i j => if (valAt s f.core a 0 i j).isZero then (decodeFp64 sl.lit1).1 else valAt s f.core b 0 i j)
    else none
  | .viadd o => int o false fun p q => p + q
  | .visub o => int o false fun p q => p - q
  | .vimul o => int o false fun p q => p * q
  | .viand o => int o true fun p q => p &&& q
  | .vior o => int o true fun p q => p ||| q
  | .vixor o => int o true fun p q => p ^^^ q
  | .vishl o => int o false fun p q => p <<< (q.toNat % 64)
  | .vishr o => int o false fun p q => p.sshiftRight (q.toNat % 64)
  | .vimin o => int o false fun p q => if p.toInt ≤ q.toInt then p else q
  | .vimax o => int o false fun p q => if p.toInt ≤ q.toInt then q else p
  | .vcvt o => oneTile f sl o [0, 1, 2, 3] (fun r => (r + 3) / 4) fun t r c =>
      let h := cvtShape sl.lit0 (t.desc.kind == 3) r c
      let xs := (s.tile f.core t).vals.map (cvtVal sl.lit0 (fireMode y sl))
      let digits := h.kind = 0 ∨ h.kind = 3
      { kind := h.kind, rows := r, cols := c, e16 := h.e16, p := h.p, elems := if digits then xs.map (·.1) else [],
        ints := if digits then [] else xs.map (·.2.1) }
  | _ => none

/-- What VCVT asks of its target form (R148): not format 14, no P above 8, no half-digit or mask of a complex tile. -/
def convertible (i : Instr) (f : Firing) (sl : Slot) : Prop :=
  ∀ o, i = .vcvt o → (sl.lit0.extractLsb' 8 4).toNat ≠ 14
    ∧ ((sl.lit0.extractLsb' 8 4).toNat = 15 → (sl.lit0.extractLsb' 4 4).toNat ≤ 8)
    ∧ ((opA f sl o).kindIn [3] = true → ¬(10 ≤ (sl.lit0.extractLsb' 8 4).toNat ∧ (sl.lit0.extractLsb' 8 4).toNat ≤ 12))

/-- Reductions and the fused row operators (R153 to R158). -/
def rowTiles (i : Instr) (s : State) (f : Firing) (sl : Slot) (y : CoreCtx) : Option Tiles :=
  let m := fireMode y sl
  let at_ (t : Token) (i j : Nat) : Val := valAt s f.core (.tile t) 0 i j
  let byRow (o : OpFields) (g : List Val → Val) : Option Tiles :=
    if o.srcA ≠ 0 then none
    else oneTile f sl o [0] (fun r => (r + 3) / 4 + 4) fun t r c => xfTile r 1 ((List.range r).map fun i => g ((List.range c).map (at_ t i)))
  let byCol (o : OpFields) (g : List Val → Val) : Option Tiles :=
    if o.srcA ≠ 0 then none
    else oneTile f sl o [0] (fun r => (r + 3) / 4 + 4) fun t r c => xfTile 1 c ((List.range c).map fun j => g ((List.range r).map fun i => at_ t i j))
  let fold (g : Val → Val → Val) (l : List Val) : Val := l.tail.foldl g (l.headD .nan)
  let rowOk (a b : Operand) : Bool := !b.isTile || (b.kindIn [0, 1, 2] && (b.dims == (a.dims.1, 1) || b.dims == (1, 1)))
  match i with
  | .rsumr o => byRow o fun l => (sumRule m l).1
  | .rmaxr o => byRow o (fold Val.max)
  | .rminr o => byRow o (fold Val.min)
  | .rsumc o => byCol o fun l => (sumRule m l).1
  | .rmaxc o => byCol o (fold Val.max)
  | .vexpd o =>
    match opA f sl o, opB f sl o with
    | .tile t, b =>
      let r := t.desc.rows
      let e (i j : Nat) : Val := (vexp m (addVal m (at_ t i j) (valAt s f.core b 0 i j).neg).1).1
      if t.desc.kind = 0 ∧ b.ok = true ∧ rowOk (.tile t) b = true then
        some { outs := [([o.dest0.toNat], xfTile r t.desc.cols (grid r t.desc.cols e)),
                        ([o.dest1.toNat], xfTile r 1 ((List.range r).map fun i => (sumRule m ((List.range t.desc.cols).map (e i))).1))],
               occ := (r + 1) / 2 + 4, cost := max r b.tileRows }
      else none
    | _, _ => none
  | .vrdiv o => twoTiles f sl o (fun a b => a.isTile && a.kindIn [0] && rowOk a b) fun a b r c =>
      eachTile s f.core (fun p q => (vdiv m p q).1) a b r c
  | .topk o =>
    match opA f sl o, operand f sl [0, 1, 5] o.srcB with
    | .tile t, b =>
      let n := t.desc.rows * t.desc.cols
      let k := if (sl.lit0.extractLsb' 48 6).toNat = 0 then 64 else (sl.lit0.extractLsb' 48 6).toNat
      let index (p : Nat) : Int := match b with
        | .tile u => (((s.tile f.core u).vals[p]?).getD (.zero false)).toInt64.1
        | _ => ((sl.lit1.extractLsb' 0 24).toNat : Int) + p
      let ranked := ((List.range n).map fun p => (((s.tile f.core t).vals[p]?).getD (.zero false), index p, p)).foldl (fun l e => insertRank e l) []
      let bOk : Bool := match b with
        | .tile u => decide (u.desc.kind ≤ 2 ∧ u.desc.rows = t.desc.rows ∧ u.desc.cols = t.desc.cols)
        | .zero => true
        | _ => false
      if t.desc.kind = 0 ∧ bOk = true ∧ k ≤ n then
        some { outs := [([o.dest0.toNat], xfTile 1 k ((ranked.take k).map (·.1))), ([o.dest1.toNat], intTile 1 k ((ranked.take k).map (·.2.1)))],
               occ := (n + 255) / 256 + (k + 3) / 4 + 8, cost := (n + 63) / 64 }
      else none
    | _, _ => none
  | .had o =>
    (oneTile f sl o [0] (fun r => 2 * ((r + 3) / 4)) fun t r c => xfTile r c (grid r c fun i j =>
      (sumRule m ((List.range 32).map fun k =>
        let v := at_ t i (j / 32 * 32 + k)
        if popCount 6 (j % 32 &&& k) % 2 = 0 then v else v.neg)).1)).bind fun q =>
      if q.outs.all fun p => p.2.cols == 32 || p.2.cols == 64 then some q else none
  | _ => none

/-- The layout operators (R157). -/
def layoutTiles (i : Instr) (s : State) (f : Firing) (sl : Slot) (_ : CoreCtx) : Option Tiles :=
  let dim6 (lo : Nat) : Nat := if (sl.lit0.extractLsb' lo 6).toNat = 0 then 64 else (sl.lit0.extractLsb' lo 6).toNat
  let rr := dim6 24
  let cc := dim6 30
  let moved (o : OpFields) (ok : Token → Bool) (r c : Token → Nat) (src : Token → Nat → Nat → Nat × Nat) (cost : Token → Nat) (occ : Token → Nat) :
      Option Tiles :=
    (oneTile f sl o [0, 1, 2, 3] (fun _ => 0) fun t _ _ => moveTile (s.tile f.core t) (r t) (c t) (src t)).bind fun q =>
      match opA f sl o with
      | .tile t => if ok t then some { q with occ := occ t, cost := cost t } else none
      | _ => none
  let filled (o : OpFields) (mk : Operand → Tile) : Option Tiles :=
    let b := operand f sl [1, 2, 3, 5, 6] o.srcB
    if (operand f sl [0] o.srcA).ok && b.ok && !b.isTile then some { outs := [(opDests o, mk b)], occ := (rr + 3) / 4, cost := rr } else none
  match i with
  | .ttrn o => moved o (fun _ => true) (·.desc.cols) (·.desc.rows) (fun _ i j => (j, i)) (fun t => max t.desc.rows t.desc.cols)
      fun t => (t.desc.cols + 3) / 4 + (t.desc.rows + 3) / 4
  | .tbrd o => moved o (fun t => let d := t.desc; (d.rows == 1 && (d.cols == 1 || d.cols == cc)) || (d.cols == 1 && d.rows == rr)) (fun _ => rr) (fun _ => cc)
      (fun t i j => (if t.desc.rows = 1 then 0 else i, if t.desc.cols = 1 then 0 else j)) (fun t => max t.desc.rows rr) fun _ => (rr + 3) / 4
  | .tslc o =>
    let r0 := (sl.lit0.extractLsb' 36 6).toNat
    let c0 := (sl.lit0.extractLsb' 42 6).toNat
    moved o (fun t => decide (r0 + rr ≤ t.desc.rows ∧ c0 + cc ≤ t.desc.cols)) (fun _ => rr) (fun _ => cc) (fun _ i j => (r0 + i, c0 + j))
      (fun t => max t.desc.rows rr) fun _ => (rr + 3) / 4
  | .tcat o =>
    match opA f sl o, operand f sl [0, 1] o.srcB with
    | .tile t, .tile u =>
      let (ra, ca, rb, cb) := (t.desc.rows, t.desc.cols, u.desc.rows, u.desc.cols)
      let side := sl.lit0.getLsbD 1
      let (r, c) := if side then (ra, ca + cb) else (ra + rb, ca)
      let (p, q) := (s.tile f.core t, s.tile f.core u)
      let join {α : Type} (dflt : α) (xs ys : List α) (m n : Nat) : List α := grid r c fun i j =>
        if side then (if j < ca then xs.getD (m + i * ca + j) dflt else ys.getD (n + i * cb + (j - ca)) dflt)
        else if i < ra then xs.getD (m + i * ca + j) dflt else ys.getD (n + (i - ra) * cb + j) dflt
      let es := join ⟨false, 0, 0⟩ p.elems q.elems
      if t.desc.kind = u.desc.kind ∧ (t.desc.kind = 1 ∨ t.desc.kind = 2 ∨ (t.desc.e16 = u.desc.e16 ∧ t.desc.p = u.desc.p)) ∧ r ≤ 64 ∧ c ≤ 64
          ∧ (if side then ra = rb else ca = cb) then
        some { outs := [(opDests o, { p with
                 rows := r, cols := c,
                 elems := if t.desc.kind = 0 then es 0 0 else if t.desc.kind = 3 then es 0 0 ++ es (ra * ca) (rb * cb) else [],
                 ints := if t.desc.kind = 1 ∨ t.desc.kind = 2 then join 0 p.ints q.ints 0 0 else [] })],
               occ := (r + 3) / 4, cost := max r (max ra rb) }
      else none
    | _, _ => none
  | .tperm o =>
    match opA f sl o, operand f sl [0, 1] o.srcB with
    | .tile t, .tile u =>
      let side := sl.lit0.getLsbD 1
      let (r, c) := if side then (t.desc.rows, u.desc.cols) else (u.desc.rows, t.desc.cols)
      let extent := if side then t.desc.cols else t.desc.rows
      let idx (n : Nat) : Option Nat :=
        (((s.tile f.core u).vals[n]?).bind Val.toIndex).bind fun k => if 0 ≤ k.1 ∧ k.1 < extent then some k.1.toNat else none
      if u.desc.kind ≤ 2 ∧ (if side then u.desc.rows = 1 else u.desc.cols = 1)
          ∧ ((List.range (u.desc.rows * u.desc.cols)).all fun n => (idx n).isSome) = true then
        some { outs := [(opDests o, moveTile (s.tile f.core t) r c fun i j => if side then (i, (idx j).getD 0) else ((idx i).getD 0, j))],
               occ := (r + 3) / 4, cost := max r (max t.desc.rows u.desc.rows) }
      else none
    | _, _ => none
  | .tfill o => filled o fun b => xfTile rr cc (List.replicate (rr * cc) b.float.1)
  | .tiota o => filled o fun b => intTile rr cc ((List.range (rr * cc)).map fun k => (BitVec.ofInt 64 (b.int + k)).toInt)
  | _ => none

end Sys2Proof.Claims

/-- R145, R147, R136 to R142, R176: every float operator of V issues with the tiles its rule gives, element by element, at its rate and
charged by the row.
Readings of the model: logs 8, 11, 13, 84, 85. -/
def Obligations.VectorFloatOperators : Prop :=
  ∀ (i : Instr) (s : State) (f : Firing) (sl : Slot) (y : CoreCtx) (x : Ctx) (r : Tiles), Issuing i s f sl y x → SoundTiles s f → NoPoison f →
    floatTiles i s f sl y = some r → Sends i s f sl y x false r.cost r.occ r.sent .none fun _ => True

/-- R148 to R152: every compare, selection, integer operator and conversion issues with the tiles its rule gives.
Readings of the model: logs 8, 85. -/
def Obligations.VectorCompareIntegerConvert : Prop :=
  ∀ (i : Instr) (s : State) (f : Firing) (sl : Slot) (y : CoreCtx) (x : Ctx) (r : Tiles), Issuing i s f sl y x → SoundTiles s f → NoPoison f →
    otherTiles i s f sl y = some r → convertible i f sl → Sends i s f sl y x false r.cost r.occ r.sent .none fun _ => True

/-- R153 to R158: every reduction, fused row operator and layout operator issues with the tiles its rule gives.
Readings of the model: logs 8, 11, 13, 39, 83, 85. -/
def Obligations.VectorRowAndLayoutOperators : Prop :=
  ∀ (i : Instr) (s : State) (f : Firing) (sl : Slot) (y : CoreCtx) (x : Ctx) (r : Tiles), Issuing i s f sl y x → SoundTiles s f → NoPoison f →
    rowTiles i s f sl y = some r ∨ layoutTiles i s f sl y = some r → Sends i s f sl y x false r.cost r.occ r.sent .none fun _ => True

/-- R140: a poison operand makes poison-tiles of the same shapes, in 1 ck for 1 unit, for every operator of V. -/
def Obligations.PoisonMakesPoisonTiles : Prop :=
  ∀ (i : Instr) (s : State) (f : Firing) (sl : Slot) (y : CoreCtx) (x : Ctx) (r : Tiles), Issuing i s f sl y x → SoundTiles s f →
    (floatTiles i s f sl y = some r ∨ otherTiles i s f sl y = some r ∧ convertible i f sl ∨ rowTiles i s f sl y = some r
      ∨ layoutTiles i s f sl y = some r) →
    (opA f sl (wordFields sl.word)).poison = true ∨ (opB f sl (wordFields sl.word)).poison = true →
    Sends i s f sl y x false 1 1 r.poisoned .none fun _ => True

namespace Sys2Proof.Claims

/-! ### M (R118 to R126) -/

/-- The opcode of an MMA-family operator: even ones zero the set first, 3 and 4 transpose A, 5 and 6 are complex, 7 and 8 take half-digits
(R122 to R124). -/
def mmaCode : Instr → Option (Nat × OpFields)
  | .mma o => some (1, o)
  | .mmaz o => some (2, o)
  | .mmat o => some (3, o)
  | .mmatz o => some (4, o)
  | .cmma o => some (5, o)
  | .cmmaz o => some (6, o)
  | .qmma o => some (7, o)
  | .qmmaz o => some (8, o)
  | _ => none

/-- A set after a firing of the MMA family has issued: zeroed for the Z forms, marked where an operand is poison. -/
def begun (zero poison : Bool) (a : AccSet) : AccSet :=
  let b := if zero then { a with elems := [], pmark := false } else a
  if poison then { b with pmark := true } else b

/-- The accumulator sets of the context on the core in t are as listed; set k is `g` of set k for the named ones (R119). -/
def SetsBecome (s t : State) (f : Firing) (named : List Nat) (g : AccSet → AccSet) : Prop :=
  ∃ y y', s.cctx? f.core f.ctx = some y ∧ t.cctx? f.core f.ctx = some y' ∧ y'.accs.length = y.accs.length
    ∧ ∀ k a, y.accs[k]? = some a → y'.accs[k]? = some (if k ∈ named then g a else a)

end Sys2Proof.Claims

namespace Sys2Proof.Claims

/-- Element p of an accumulator set: row p / 64, column p % 64. -/
def accAt (q : AccSet) (p : Nat) : BitVec 80 := (q.rows.getD (p / 64) []).getD (p % 64) 0

/-- The terms of a k-group after another: 32 values of k each, the last group the rest (R47). -/
def grouped (depth : Nat) (terms : Nat → List (Val × Bool)) : List (List (Val × Bool)) :=
  (List.range ((depth + 31) / 32)).map fun g => (((List.range 32).map (32 * g + ·)).filter (· < depth)).flatMap terms

/-- The terms of element (i, j) at one k, of the real part and of the imaginary part (R48, R49, R122 to R124). -/
def termsAt (n : Nat) (s : State) (core : Nat) (q : AccSet) (a b : Token) (im : Bool) (i j k : Nat) : List (Val × Bool) :=
  let x (part : Bool) : Val := if n = 3 ∨ n = 4 then valAt s core (.tile a) 0 k i
    else valAt s core (.tile a) (if part then a.desc.rows * a.desc.cols else 0) i k
  let y (part : Bool) : Val := valAt s core (.tile b) (if part then b.desc.rows * b.desc.cols else 0) k j
  let minus (t : Val × Bool) : Val × Bool := (t.1.neg, t.2)
  if n = 7 ∨ n = 8 then [exactProduct [accVal ((q.scales.getD j []).getD (k / 32) xfOne), x false, valAt s core (.tile b) 0 j k]]
  else if n = 5 ∨ n = 6 then
    if im then [exactProduct [x false, y true], exactProduct [x true, y false]]
    else [exactProduct [x false, y false], minus (exactProduct [x true, y true])]
  else [exactProduct [x false, y false]]

end Sys2Proof.Claims

/-- R119, R121 to R124, R126, R140: an MMA-family firing issues for its passes, zeroes or marks its sets, and has the product of all its k-groups to
do, or none where it sends poison; its result is a new tile, or the count of its k-groups. When it sends, every element of its region has taken the terms of each k-group in
one update of R47, the other elements and sets are as they were, and a result tile holds the region.
Readings of the model: logs 35, 57, 83. -/
def Obligations.ProductsIssueAndSum : Prop :=
  (∀ (i : Instr) (n : Nat) (o : OpFields) (s : State) (f : Firing) (sl : Slot) (y : CoreCtx) (x : Ctx) (a b : Token), Issuing i s f sl y x →
    SoundTiles s f → mmaCode i = some (n, o) → opA f sl o = .tile a → operand f sl [0, 1] o.srcB = .tile b → y.accs.length = 4 → sl.acc < 4 →
    let d := a.desc
    let e := b.desc
    let cplx := n = 5 ∨ n = 6
    let half := n = 7 ∨ n = 8
    let r := if n = 3 ∨ n = 4 then d.cols else d.rows
    let k := if n = 3 ∨ n = 4 then d.rows else d.cols
    let c := if half then e.rows else e.cols
    let groups := (k + 31) / 32
    let passes := if half then d.p else (if cplx then 4 else 1) * d.p * e.p
    let occ := if half then passes * ((k + 7) / 8) else passes * ((k + 3) / 4)
    let sets := if cplx then [sl.acc, sl.acc ^^^ 1] else [sl.acc]
    let poison := a.isPoison || b.isPoison
    let marked := poison || (n % 2 == 1 && sets.any fun q => ((y.accs[q]?).map (·.pmark)).getD false)
    d.kind = (if cplx then 3 else 0) → e.kind = (if cplx then 3 else if half then 1 else 0) → (if half then e.cols else e.rows) = k →
    Sends i s f sl y x false passes occ
      (fun col tag => [bothOut o (if sl.lit0.getLsbD 0 = false then
            .newTile (Shape.desc { rows := r, cols := c, kind := if cplx then 3 else 0 } marked) [] marked
          else .scalar (if marked then 0 else BitVec.ofNat 64 groups) marked) col tag])
      (.mma n sl.acc groups r c marked) fun t => SetsBecome s t f sets (begun (n % 2 == 0) poison))
  ∧ ∀ (i : Instr) (n : Nat) (o : OpFields) (s : State) (f : Firing) (sl : Slot) (y : CoreCtx) (a b : Token) (groups r c depth : Nat), s.Inv →
      s.firing? f.id = some f → f.phase = .working → s.runs f.ctx = true → f.inOrder = false → f.op = wordOp sl.word → f.due ≤ s.ck → f.prog = 0 →
      f.eos = false → encode i = some sl.word → mmaCode i = some (n, o) → s.slot? f.core f.ctx f.eng f.slot = some sl → s.cctx? f.core f.ctx = some y →
      y.part = none → y.cont = none → y.accs.length = 4 → sl.acc < 4 → f.tok o.srcA = some a → f.tok o.srcB = some b →
      a.desc.kind = (if n = 5 ∨ n = 6 then 3 else 0) → b.desc.kind = (if n = 5 ∨ n = 6 then 3 else if n = 7 ∨ n = 8 then 1 else 0) →
      (r, depth) = (if n = 3 ∨ n = 4 then (a.desc.cols, a.desc.rows) else (a.desc.rows, a.desc.cols)) →
      (depth, c) = (if n = 7 ∨ n = 8 then (b.desc.cols, b.desc.rows) else (b.desc.rows, b.desc.cols)) → groups = (depth + 31) / 32 → r ≤ 64 → c ≤ 64 → depth ≤ 64 →
      f.job = .mma n sl.acc groups r c false →
      Answers (.firingResultSend f.id) s fun t => ∃ z, t.cctx? f.core f.ctx = some z ∧ z.accs.length = 4
        ∧ (∀ k old, y.accs[k]? = some old → ∃ new, z.accs[k]? = some new ∧ new.pmark = old.pmark ∧ new.sigma = old.sigma ∧ ∀ p, p < 4096 →
            let im := decide (k ≠ sl.acc)
            accAt new p = if (k = sl.acc ∨ ((n = 5 ∨ n = 6) ∧ k = sl.acc ^^^ 1)) ∧ p / 64 < r ∧ p % 64 < c then
              encodeXf (applyGroups (grouped depth (termsAt n s f.core old a b im (p / 64) (p % 64))) (accVal (accAt old p))).1 else accAt old p)
        ∧ ∀ q d, f.outs = [q] → q.val = .tile d 0 false → let h := Desc.ofWords d 0
            h.rows = r → h.cols = c → h.e16 = true → h.p = 8 → h.kind = (if n = 5 ∨ n = 6 then 3 else 0) →
            let region (k : Nat) : List Val := grid r c fun i j => accVal (accAt (z.accs.getD k AccSet.reset) (64 * i + j))
            let tl := if n = 5 ∨ n = 6 then complexXf r c (region sl.acc ++ region (sl.acc ^^^ 1)) else xfTile r c (region sl.acc)
            HeldAs t f.core (.newTile (tl.desc false) tl.bytes false) (.tile d 0 false)

namespace Sys2Proof.Claims

/-- What an accumulator operator leaves of the sets of its context on its core: set ACC as g says, the others as they were (R119). -/
def AccNow (f : Firing) (sl : Slot) (y : CoreCtx) (t : State) (g : AccSet → Prop) : Prop :=
  ∃ z, t.cctx? f.core f.ctx = some z ∧ g (z.accs.getD sl.acc AccSet.reset) ∧ ∀ k, k ≠ sl.acc → z.accs[k]? = y.accs[k]?

/-- Scale k of row j of an accumulator set (R119). -/
def scaleAt (q : AccSet) (j k : Nat) : BitVec 80 := (q.scales.getD j []).getD k xfOne

/-- A 6-bit extent of lit0 in which 0 stands for 64. -/
def extentAt (sl : Slot) (lo : Nat) : Nat := if (sl.lit0.extractLsb' lo 6).toNat = 0 then 64 else (sl.lit0.extractLsb' lo 6).toNat

/-- The result of ACCLD (R122 `emit` with no k-groups): a tile of the set's region, or data-scalar 0; poison where the set is marked. -/
def accOut (o : OpFields) (sl : Slot) (r c : Nat) (q : AccSet) (col : Nat) (tag : BitVec 32) : List Out :=
  [bothOut o (if sl.lit0.getLsbD 0 = false then
      let tl := xfTile r c (grid r c fun i j => accVal (accAt q (64 * i + j)))
      .newTile (tl.desc q.pmark) tl.bytes q.pmark
    else .scalar 0 q.pmark) col tag]

end Sys2Proof.Claims

/-- R126: ACCLD writes its tile into the region or into the scales of its set, a poison tile only marks it; ACCST narrows the region into a new
tile; ACCZ zeroes the set and keeps its scales; ACCSCL multiplies it element by element, a poison operand only marks it. Each completes: it
issues, with its result, at its occupancy and for 1 unit.
Readings of the model: logs 7, 35, 57. -/
def Obligations.AccumulatorOperators : Prop :=
  ∀ (s : State) (f : Firing) (sl : Slot) (y : CoreCtx) (x : Ctx) (o : OpFields) (col : Nat) (tag : BitVec 32),
    Outgoing (wordFields sl.word) f sl y x false col tag → SoundTiles s f → y.accs.length = 4 → sl.acc < 4 →
    let m := fireMode y sl
    let acc := y.accs.getD sl.acc AccSet.reset
    let trigger := operand f sl [0, 1] o.srcB
    (∀ a, Issuing (.accld o) s f sl y x → opA f sl o = .tile a → a.desc.kind = 0 → o.srcB = 5 →
      let r := a.desc.rows
      let c := a.desc.cols
      let scales := sl.lit0.getLsbD 1
      (scales = true → c ≤ 2) →
      ∃ t q, exec (.accld o) s = .next t ∧ Issued s t f sl y 1 ((r + 3) / 4) (accOut o sl r c q col tag) .none col tag ∧ AccNow f sl y t (· = q)
        ∧ (a.isPoison = true → q = { acc with pmark := true })
        ∧ (a.isPoison = false → q.pmark = (acc.pmark && scales)
            ∧ (∀ p, p < 4096 → accAt q p = if scales = false ∧ p / 64 < r ∧ p % 64 < c
                then encodeXf (valAt s f.core (.tile a) 0 (p / 64) (p % 64)) else accAt acc p)
            ∧ ∀ j k, j < 64 → k < 2 → scaleAt q j k = if scales = true ∧ j < r ∧ k < c
                then encodeXf (valAt s f.core (.tile a) 0 j k) else scaleAt acc j k))
    ∧ (Issuing (.accst o) s f sl y x → o.srcA = 4 → trigger.ok = true →
      let r := extentAt sl 16
      let c := extentAt sl 24
      let p := if (sl.lit0.extractLsb' 4 4).toNat = 0 then 8 else (sl.lit0.extractLsb' 4 4).toNat
      let e16 := !sl.lit0.getLsbD 8
      let poison := acc.pmark || trigger.poison
      let tl := denseTile r c e16 p (grid r c fun i j => ((accVal (accAt acc (64 * i + j))).round (planeTarget e16 p) m).1)
      p ≤ 8 → ∃ t, exec (.accst o) s = .next t ∧ AccNow f sl y t (· = acc)
        ∧ Issued s t f sl y 1 ((r + 3) / 4) [bothOut o (.newTile (tl.desc poison) (if poison then [] else tl.bytes) poison) col tag] .none col tag)
    ∧ (Issuing (.accz o) s f sl y x → (opA f sl o).ok = true → o.srcB = 5 →
      ∃ t, exec (.accz o) s = .next t ∧ Issued s t f sl y 1 1 [bothOut o (.scalar 0 (opA f sl o).poison) col tag] .none col tag
        ∧ AccNow f sl y t (· = { acc with elems := [], pmark := false }))
    ∧ (let b := opB f sl o
      let r := if b.dims.1 = 1 then 64 else b.dims.1
      let c := if b.dims.2 = 1 then 64 else b.dims.2
      Issuing (.accscl o) s f sl y x → o.srcA = 4 → b.ok = true → b.kindIn [0] = true →
      ∃ t, exec (.accscl o) s = .next t ∧ Issued s t f sl y 1 ((r + 3) / 4) [bothOut o (.scalar 0 b.poison) col tag] .none col tag
        ∧ AccNow f sl y t fun q => q.pmark = (acc.pmark || b.poison) ∧ q.sigma = acc.sigma
          ∧ ∀ p, p < 4096 → accAt q p = if b.poison = false ∧ p / 64 < r ∧ p % 64 < c
              then encodeXf (roundXf m (mulVal (accVal (accAt acc p)) (valAt s f.core b 0 (p / 64) (p % 64))).1).1 else accAt acc p)

/-- R310, R119: MCONT with a continuation block sets the stopped firing going again for the time that remains, after the swap, and uses up the block;
no other firing changes.
Readings of the model: log 14. -/
def Obligations.McontResumesTheProduct : Prop :=
  ∀ (s : State) (o : OpFields) (f g : Firing) (y : CoreCtx) (k : BitVec 512), s.Inv → s.firing = some f → s.cctx? f.core f.ctx = some y →
    y.cont = some k → s.firing? f.id = some g →
    ∃ t, exec (.mcont o) s = .next t ∧ t.firing = none ∧ (f.core, f.ctx) ∈ t.flow.holder
      ∧ t.firing? f.id = some { g with phase := .working, start := s.ck + swapCk s f.core f.ctx y, due := s.ck + swapCk s f.core f.ctx y + g.busy, busy := s.ck + swapCk s f.core f.ctx y + g.busy }
      ∧ (∀ n, n ≠ f.id → t.firing? n = s.firing? n)
      ∧ ∃ y', t.cctx? f.core f.ctx = some y' ∧ { y' with cont := y.cont, everInM := y.everInM } = y ∧ y'.cont = none

namespace Sys2Proof.Claims

/-! ### The parallel, poison and debug operators (R182 to R188, R311 to R317) -/

/-- The token of the lone data operand: source A on port a or b, source B zero (R184, R311). -/
def lone (f : Firing) (o : OpFields) : Option Token := if (o.srcA = 0 ∨ o.srcA = 1) ∧ o.srcB = 5 then f.tok o.srcA else none

/-- The consumed predicate (R71). -/
def predOf (f : Firing) : Bool := match f.p with
  | some t => t.w0.getLsbD 0
  | none => false

/-- The truth of an operand (R182): neither zero of its element (0, 0), or of either part of it. -/
def truthOf (s : State) (core : Nat) : Operand → Bool
  | .scalar t => t.w0 != 0 && t.w0 != 0x8000000000000000
  | .lit w => w != 0 && w != 0x8000000000000000
  | .iter tag => tag != 0
  | .tile t => !(valAt s core (.tile t) 0 0 0).isZero
      || (t.desc.kind == 3 && !(valAt s core (.tile t) (t.desc.rows * t.desc.cols) 0 0).isZero)
  | _ => false

/-- An unsigned field of a tag (R163). -/
def tagPart (x : Ctx) (tag : BitVec 32) (k : Nat) : Nat := tagField x.tagfmt tag k

/-- What a parallel, poison or debug operator sends, from its outgoing colour and tag, where its operands are good (R184 to R188, R311 to R317). -/
def routed (i : Instr) (s : State) (f : Firing) (sl : Slot) (y : CoreCtx) (x : Ctx) : Option (Nat → BitVec 32 → List Out) :=
  let mk (codes : List (BitVec 7)) (v : OutVal) (col : Nat) (tag : BitVec 32) : Out := { codes := codes.map (·.toNat), val := v, col := col, tag := tag }
  let both (o : OpFields) : List (BitVec 7) := [o.dest0, o.dest1]
  let p := predOf f
  let one (o : OpFields) (g : Token → Nat → BitVec 32 → List Out) : Option (Nat → BitVec 32 → List Out) := (lone f o).map g
  let pair (o : OpFields) : Option Unit := if o.srcA = 0 ∧ o.srcB = 1 then some () else none
  let pred (o : OpFields) (v : Operand) (g : Bool → Bool) : Option (Nat → BitVec 32 → List Out) :=
    if v.ok then some fun col tag => [mk (both o) (.pred (g (truthOf s f.core v))) col tag] else none
  let values : List Nat := [0, 1, 2, 3, 5, 6]
  let k := (sl.lit0.extractLsb' 0 2).toNat
  let n := sl.lit1.toNat
  let w := tagWidth x.tagfmt k
  let c6 := (sl.lit1.extractLsb' 0 6).toNat
  match i with
  | .steer o => one o fun t col tag => [mk [if p then o.dest0 else o.dest1] (.forward t) col tag]
  | .select o => do
      pair o
      let a ← f.a
      let b ← f.b
      some fun col tag => [mk (both o) (.forward (if p then a else b)) col tag]
  | .merge o => do
      pair o
      let t ← f.a.or f.b
      some fun col tag => [mk (both o) (.forward t) col tag]
  | .gate o => one o fun t col tag => if p then [mk (both o) (.forward t) col tag] else []
  | .sync o => do
      pair o
      let a ← f.a
      let b ← f.b
      some fun col tag => [mk [o.dest0] (.forward a) col tag, mk [o.dest1] (.forward b) col tag]
  | .sink o => one o fun _ _ _ => []
  | .pass o => one o fun t col tag => [mk (both o) (.forward t) col tag]
  | .cola o =>
    let c := (f.got.or (y.freeColour x.cols)).getD 0
    if o.tag = 6 ∨ o.tag = 7 then none
    else one o fun t col tag => [mk [o.dest0] (.forward t) c tag, mk [o.dest1] (.scalar (BitVec.ofNat 64 c) false) col tag]
  | .colf o =>
    let c : Option Nat := match operand f sl [0, 1, 3] o.srcB with
      | .scalar t => some (t.w0.extractLsb' 0 6).toNat
      | .lit w => some (w.extractLsb' 0 6).toNat
      | _ => none
    match c, (if o.srcA = 0 ∨ o.srcA = 1 then f.tok o.srcA else none) with
    | some c, some t =>
      if o.tag = 6 ∨ o.tag = 7 ∨ x.cols < c ∨ (c ≠ 0 ∧ y.held c = false) then none
      else some fun col tag => [mk (both o) (.forward t) col tag]
    | _, _ => none
  | .itnx o =>
    if o.tag = 0 ∧ w ≠ 0 ∧ 1 ≤ n ∧ n ≤ 2^w then
      one o fun t col tag =>
        let v := tagPart x tag k + 1
        if v < n then [mk [o.dest0] (.forward t) col (setTagField x.tagfmt tag k v)] else [mk [o.dest1] (.forward t) col (setTagField x.tagfmt tag k 0)]
    else none
  | .itex o =>
    if (o.tag = 0 ∨ o.tag = 7) ∧ c6 ≤ x.cols then
      one o fun t _ _ => [mk (both o) (.forward t) c6 ((List.range (k + 1)).foldl (fun g q => setTagField x.tagfmt g q 0) f.tag)]
    else none
  | .fork o =>
    if o.tag = 0 ∧ 1 ≤ n ∧ n ≤ 256 ∧ n ≤ 2^w then
      one o fun t col tag => ((List.range n).map fun q => mk [o.dest0] (.forward t) col (setTagField x.tagfmt tag k q))
        ++ [mk [o.dest1] (.scalar (BitVec.ofNat 64 n) false) col tag]
    else none
  | .pand o => if o.srcB = 5 then pred o (operand f sl values o.srcA) fun b => p && b else none
  | .por o => if o.srcB = 5 then pred o (operand f sl values o.srcA) fun b => p || b else none
  | .pnot o => if o.srcA = 5 ∧ o.srcB = 5 then some fun col tag => [mk (both o) (.pred (!p)) col tag] else none
  | .pcnst o => if (o.srcA = 0 ∨ o.srcA = 1) ∧ (f.tok o.srcA).isSome then pred o (operand f sl values o.srcB) id else none
  | .psn o => one o fun t col tag => [mk (both o) (.forward (if t.kind = 0 ∨ t.kind = 5 then
      { t with kind := 5, psn := true, w0 := t.w0 ||| BitVec.twoPow 64 43 } else { t with kind := 6, psn := true })) col tag]
  | .ptst o => one o fun t col tag => [mk [o.dest0] (.pred t.isPoison) col tag, mk [o.dest1] (.forward t) col tag]
  | .seal o => one o fun _ _ _ => []
  | .trapo o => one o fun t col tag => [mk (both o) (.forward t) col tag]
  | .dbrk o => if sl.lit0.extractLsb' 0 2 = 0 ∧ sl.lit0.extractLsb' 17 44 = 0 then one o fun t col tag => [mk (both o) (.forward t) col tag] else none
  | .dstp o => one o fun t col tag => [mk (both o) (.forward t) col tag]
  | .dhld o => one o fun t col tag => [mk (both o) (.forward t) col tag]
  | _ => none

/-- FORK's copies take a ck and a unit each (R188). -/
def copies (i : Instr) (sl : Slot) : Nat :=
  match i with
  | .fork _ => sl.lit1.toNat
  | _ => 1

/-- COLA takes a colour (R186). -/
def takesColour : Instr → Bool
  | .cola _ => true
  | _ => false

/-- What else such an operator does when it issues: COLA's colour is allocated, COLF's returns once the token is sent, SEAL seals its section,
TRAPO gives its control core the notice. -/
def routedToo (i : Instr) (s : State) (f : Firing) (sl : Slot) (y : CoreCtx) (x : Ctx) (t : State) : Prop :=
  match i with
  | .cola _ => ∃ z, t.cctx? f.core f.ctx = some z ∧ (f.got = none → ∀ c, y.freeColour x.cols = some c → (c, f.sect) ∈ z.pool)
  | .colf o => ∃ g ∈ t.flow.firings, g.id = f.id ∧ ∀ c, ((operand f sl [0, 1, 3] o.srcB = .lit sl.lit1 ∧ c = (sl.lit1.extractLsb' 0 6).toNat)
      ∨ ∃ q, operand f sl [0, 1, 3] o.srcB = .scalar q ∧ c = (q.w0.extractLsb' 0 6).toNat) → c ≠ 0 → g.freeCol = some c
  | .seal _ => s.runs f.ctx = true → s.isSealed f.ctx f.sect = false → ∃ k, (f.ctx, f.sect, k) ∈ t.flow.seals
  | .trapo _ => (s.ctl f.core).owner = some f.ctx →
      (t.ctl f.core).trapos = (s.ctl f.core).trapos ++ [sl.lit0] ∧ (t.ctl f.core).status.getLsbD 34 = true
  | _ => True

end Sys2Proof.Claims

/-- R182, R184 to R188, R311 to R317: every parallel, poison, trap and debug operator issues for 1 ck and 1 unit (FORK for one of each a copy) and
sends what its rule says. What a debug operator does once it has sent is in FiringsSendTheirResults.
Readings of the model: logs 38, 91. -/
def Obligations.RoutingOperators : Prop :=
  ∀ (i : Instr) (s : State) (f : Firing) (sl : Slot) (y : CoreCtx) (x : Ctx) (outs : Nat → BitVec 32 → List Out), Issuing i s f sl y x →
    SoundTiles s f → ((∃ o, i = .pand o ∨ i = .por o ∨ i = .pcnst o ∨ i = .colf o) → NoPoison f) → routed i s f sl y x = some outs →
    Sends i s f sl y x (takesColour i) (copies i sl) (copies i sl) outs .none (routedToo i s f sl y x)

/-- R163, R164: each tag field lies above the fields before it, at the widths of k.tagfmt; one of width 0 reads 0. The tag actions: INC adds 1 to its field and leaves the others, CLR zeroes field 0, FREEC goes to colour 0, SETC to a colour of the
context, ZERO to colour 0 and tag 0; INC of an absent or full field faults with tag overflow, SETC beyond the colours with colour. -/
def Obligations.TagActionsFollowTheTable : Prop :=
  ∀ (fmt : BitVec 24) (cols code : Nat) (lit : Word) (got col : Nat) (tag : BitVec 32),
    (tagWidth fmt 0 + tagWidth fmt 1 + tagWidth fmt 2 + tagWidth fmt 3 ≤ 32) →
    let w (k : Nat) : Nat := (fmt.extractLsb' (6 * k) 6).toNat
    tagField fmt tag 0 = (tag.extractLsb' 0 (w 0)).toNat ∧ tagField fmt tag 1 = (tag.extractLsb' (w 0) (w 1)).toNat
    ∧ tagField fmt tag 2 = (tag.extractLsb' (w 0 + w 1) (w 2)).toNat ∧ tagField fmt tag 3 = (tag.extractLsb' (w 0 + w 1 + w 2) (w 3)).toNat
    ∧ (∀ k, k < 4 → w k = 0 → tagField fmt tag k = 0)
    ∧ let act := tagAction fmt cols code lit got col tag
    (∀ k, k < 4 → code = k + 1 →
      (tagField fmt tag k + 1 < 2^(tagWidth fmt k) → ∃ g, act = .inr (col, g) ∧ tagField fmt g k = tagField fmt tag k + 1
        ∧ (∀ q, q < 4 → q ≠ k → tagField fmt g q = tagField fmt tag q)
        ∧ g.toNat / 2^(tagLow fmt 4) = tag.toNat / 2^(tagLow fmt 4))
      ∧ (2^(tagWidth fmt k) ≤ tagField fmt tag k + 1 → act = .inl 8))
    ∧ (code = 5 → ∃ g, act = .inr (col, g) ∧ tagField fmt g 0 = 0 ∧ (∀ q, 1 ≤ q → q < 4 → tagField fmt g q = tagField fmt tag q)
      ∧ g.toNat / 2^(tagLow fmt 4) = tag.toNat / 2^(tagLow fmt 4))
    ∧ (code = 0 → act = .inr (col, tag)) ∧ (code = 6 → act = .inr (got, tag)) ∧ (code = 7 → act = .inr (0, tag))
    ∧ (code = 8 → act = if (lit.extractLsb' 0 6).toNat ≤ cols then .inr ((lit.extractLsb' 0 6).toNat, tag) else .inl 9)
    ∧ (code = 9 → act = .inr (0, 0))

namespace Sys2Proof.Claims

/-! ### Memory, asynchronous, Chest, ticket and barrier operators -/

/-- What such an operator does at issue: its cost and occupancy, its results, the work it leaves, and the Chest entry it takes, by class, kind,
handle, generation and operand (R286). -/
structure Work where
  cost : Nat := 1
  occ : Nat := 1
  outs : Nat → BitVec 32 → List Out
  job : Job := .none
  entry : Option (Nat × Nat × Nat × Nat × Word) := none

/-- The record that a handle translates to (R204). -/
def record? (s : State) (f : Firing) (h kind perm : Nat) : Option ObjRec :=
  match s.translate f.ctx h kind perm with
  | .ok r => some r
  | _ => none

/-- A count of six bits in which 0 means 64 (R120). -/
def six (w : Word) (lo : Nat) : Nat := if (w.extractLsb' lo 6).toNat = 0 then 64 else (w.extractLsb' lo 6).toNat

/-- The token of source A where source B has a code. -/
def tokenBeside (f : Firing) (o : OpFields) (code : BitVec 3) : Option Token :=
  if (o.srcA = 0 ∨ o.srcA = 1) ∧ o.srcB = code then f.tok o.srcA else none

/-- The row indices that an index tile brings (R242). -/
def rowsOfIndex (s : State) (f : Firing) (t : Token) : Option (List Int) :=
  if t.isTile = true ∧ t.desc.kind = 0 ∧ t.desc.cols = 1 then ((s.tile f.core t).vals.mapM Val.toIndex).map fun l => l.map (·.1) else none

/-- A load of a tile (R130, R131): every cell outside gives the pad element and no access. -/
def loadWork (o : OpFields) (sl : Slot) (kind h : Nat) (r : ObjRec) (t : Access) : Option Work :=
  let n := t.rows.length
  let desc : Word := (loadedTile r.fmt n t.cols []).desc false
  if (r.rank = 1 ∧ n ≠ 1) ∨ (sl.edge = 1 ∧ t.someOut = true) then none
  else if t.allOut then
    some { cost := n, occ := n, outs := fun c g => [bothOut o (.newTile desc (loadedTile r.fmt n t.cols (List.replicate (n * t.cols) t.padElem)).bytes false) c g] }
  else some { cost := n, outs := fun c g => [bothOut o (.newTile desc [] false) c g], job := .load t, entry := some (0, kind, h, r.gen, 0) }

/-- A store of a tile (R132, R243): its result is the bytes the access declares. -/
def storeWork (o : OpFields) (sl : Slot) (kind h : Nat) (r : ObjRec) (t : Access) : Option Work :=
  let n := t.rows.length
  let x1 := dim t.x 1
  let outs (c : Nat) (g : BitVec 32) : List Out := [bothOut o (.scalar (BitVec.ofNat 64 (declaredBytes r.fmt n t.cols)) false) c g]
  if (r.rank = 1 ∧ n ≠ 1) ∨ x1 % r.group ≠ 0 ∨ t.cols % r.group ≠ 0 ∨ (r.had = true ∧ (x1 % 32 ≠ 0 ∨ t.cols % 32 ≠ 0))
      ∨ (sl.edge = 1 ∧ t.someOut = true) then none
  else if t.allOut then some { cost := n, occ := n, outs := outs }
  else some { cost := n, outs := outs, job := .store t, entry := some (1, kind, h, r.gen, 0) }

/-- An atomic (R244, R245). -/
def atomicWork (op : Nat) (o : OpFields) (s : State) (f : Firing) (sl : Slot) (y : CoreCtx) (x : Ctx) : Option Work := do
  let (v, uns, _) ← valueOperand (operand f sl (if op = 4 then [0, 1, 5, 6] else [0, 1, 3, 5, 6]) o.srcA)
  guard ((o.srcB = 0 ∨ o.srcB = 1 ∨ o.srcB = 5) ∧ sl.lit0.extractLsb' 27 9 = 0 ∧ (sl.lit0.extractLsb' 24 3).toNat ≤ 6)
  let r ← record? s f (handleOf sl.lit0) 0 2
  guard (r.st ≠ 4 ∧ r.fmt ∈ [0, 1, 6, 7, 8, 9])
  let c ← firingCoord f x sl.lit0 1 1 (triggerBase (f.tok o.srcB))
  let t := mkAccess y sl (handleOf sl.lit0) r c [0] 1 0 0
  guard (t.someOut = false)
  some { outs := fun c g => [{ codes := [o.dest0.toNat], val := .scalar 0 false, col := c, tag := g },
                             { codes := [o.dest1.toNat], val := .scalar 0 false, col := c, tag := g }],
         job := .atomic t op (sl.lit0.extractLsb' 24 3).toNat v uns sl.lit1, entry := some (2, 6, handleOf sl.lit0, r.gen, v) }

/-- A counter's record, row and column (R270). -/
def counterOf (s : State) (f : Firing) (sl : Slot) (x : Ctx) (wait : Bool) (perm : Nat) : Option (ObjRec × Nat × Nat) := do
  let w := sl.lit0
  guard (w.extractLsb' 57 7 = 0)
  let r ← record? s f (handleOf w) 3 perm
  let row := (w.extractLsb' 24 16).toNat + (if w.getLsbD 46 then tagField x.tagfmt f.tag (w.extractLsb' 47 2).toNat else 0)
  let col := (w.extractLsb' 40 6).toNat
  guard (row < dim r.shape 2 ∧ (wait = true ∨ (col < dim r.shape 1 ∧ w.extractLsb' 49 8 = 0)))
  some (r, row, col)

/-- SHOP and PUBL (R274), checked on the record as the commands queued for the object leave it: its shadow apart from it, no other relocation of its
state queued. -/
def shadowWork (publ : Bool) (o : OpFields) (s : State) (f : Firing) (sl : Slot) : Option Work := do
  let h := handleOf sl.lit0
  let _ ← tokenBeside f o 5
  guard (sl.lit0.extractLsb' 24 40 = 0)
  let p ← match s.translateTo h ((s.obj? h).map fun _ => s.projected h) f.ctx 0 1 with
    | .ok p => some p
    | _ => none
  let n := p.footprint
  guard (p.owner = s.devId ∧ if publ then p.st = 4 else p.st = 1 ∧ p.shadow ≠ 0 ∧ ¬(p.shadow < p.base + n ∧ p.base < p.shadow + n))
  some { outs := fun c g => [{ codes := [o.dest0.toNat], val := .scalar 0 false, col := c, tag := g },
                             { codes := [o.dest1.toNat], val := .scalar 0 false, col := c, tag := g }],
         job := .hub h publ, entry := some (2, if publ then 20 else 19, h, ((s.obj? h).map (·.gen)).getD 0, 0) }

/-- The operators of tiles, scalars, atomics, fences and rings (R131 to R134, R242 to R248). -/
def memoryWork (i : Instr) (s : State) (f : Firing) (sl : Slot) (y : CoreCtx) (x : Ctx) : Option Work :=
  let h := handleOf sl.lit0
  let base : List Nat := [0, 0, 0, 0, 0, 0]
  let fence (scope : Nat) (o : OpFields) : Option Work :=
    (tokenBeside f o 5).map fun t => { outs := fun c g => [bothOut o (.forward t) c g], job := .fence scope, entry := some (0, 9, 0, 0, 0) }
  match i with
  | .tld o => do
    guard (o.srcB = 2 ∧ (operand f sl [0, 1] o.srcA).ok = true)
    let r ← record? s f h 0 0
    let c ← firingCoord f x sl.lit0 (six sl.lit0 24) (six sl.lit0 30) (triggerBase (f.tok o.srcA))
    loadWork o sl 0 h r (mkAccess y sl h r c ((List.range (six sl.lit0 24)).map Int.ofNat) (six sl.lit0 30) 0 0)
  | .tldg o => do
    let t ← tokenBeside f o 2
    let rows ← rowsOfIndex s f t
    let r ← record? s f h 0 0
    let c ← firingCoord f x sl.lit0 (six sl.lit0 24) (six sl.lit0 30) base
    loadWork o sl 4 h r (mkAccess y sl h r c rows (six sl.lit0 30) 0 0)
  | .tst o => do
    let d ← tokenBeside f o 2
    guard (d.isTile = true)
    let r ← record? s f h 0 1
    let c ← firingCoord f x sl.lit0 (six sl.lit0 24) (six sl.lit0 30) base
    storeWork o sl 1 h r (mkAccess y sl h r c ((List.range d.desc.rows).map Int.ofNat) d.desc.cols d.w0 d.w1)
  | .tsts o => do
    guard (o.srcA = 0 ∧ o.srcB = 1)
    let d ← f.a
    let t ← f.b
    guard (d.isTile = true)
    let rows ← rowsOfIndex s f t
    guard (rows.length = d.desc.rows)
    let r ← record? s f h 0 1
    let c ← firingCoord f x sl.lit0 (six sl.lit0 24) (six sl.lit0 30) base
    storeWork o sl 5 h r (mkAccess y sl h r c rows d.desc.cols d.w0 d.w1)
  | .sld o => do
    guard (o.srcB = 2 ∧ (operand f sl [0, 1] o.srcA).ok = true)
    let r ← record? s f h 0 0
    let c ← firingCoord f x sl.lit0 (six sl.lit0 24) (six sl.lit0 30) (triggerBase (f.tok o.srcA))
    let t := mkAccess y sl h r c [0] 1 0 0
    if t.allOut then
      guard (sl.edge ≠ 1)
      some { outs := fun c g => [bothOut o (.scalar sl.lit1 false) c g] }
    else some { outs := fun c g => [bothOut o (.scalar 0 false) c g], job := .scalarLoad t, entry := some (0, 2, h, r.gen, 0) }
  | .sst o => do
    let (v, uns, _) ← valueOperand (operand f sl [0, 1, 3, 5, 6] o.srcA)
    guard (o.srcB = 2)
    let r ← record? s f h 0 1
    let c ← firingCoord f x sl.lit0 (six sl.lit0 24) (six sl.lit0 30) base
    let t := mkAccess y sl h r c [0] 1 0 0
    let outs (c : Nat) (g : BitVec 32) : List Out := [bothOut o (.scalar (BitVec.ofNat 64 (elemBytes r.fmt)) false) c g]
    if t.allOut then
      guard (sl.edge ≠ 1)
      some { outs := outs }
    else some { outs := outs, job := .scalarStore t v uns, entry := some (1, 3, h, r.gen, v) }
  | .atad o => atomicWork 0 o s f sl y x
  | .atmn o => atomicWork 1 o s f sl y x
  | .atmx o => atomicWork 2 o s f sl y x
  | .atxc o => atomicWork 3 o s f sl y x
  | .atcs o => atomicWork 4 o s f sl y x
  | .fncEngine o => fence 0 o
  | .fncCore o => fence 1 o
  | .fncQuad o => fence 2 o
  | .fncCluster o => fence 3 o
  | .fncDie o => fence 4 o
  | .fncDevice o => fence 5 o
  | .fncSystem o => fence 6 o
  | .rpush o => do
    let t ← tokenBeside f o 2
    guard (t.isTile = true ∧ sl.lit0.extractLsb' 24 40 = 0)
    let r ← record? s f h 1 1
    guard (t.desc.rows * t.desc.cols * fmtBits r.fmt ≤ 8 * dim r.shape 1)
    some { cost := t.desc.rows, occ := t.desc.rows, outs := fun c g => [bothOut o (.scalar 0 false) c g],
           job := .push h r t.w0 t.w1 0 (objMode y sl r), entry := some (2, 7, h, r.gen, 0) }
  | _ => none

/-- The asynchronous, Chest, ticket and barrier operators (R189, R190, R269 to R279, R312, R348). -/
def asyncWork (i : Instr) (s : State) (f : Firing) (sl : Slot) (y : CoreCtx) (x : Ctx) : Option Work :=
  let h := handleOf sl.lit0
  let zero (c : BitVec 7) (col : Nat) (g : BitVec 32) : Out := { codes := [c.toNat], val := .scalar 0 false, col := col, tag := g }
  let num (o : OpFields) (n : Nat) (c : Nat) (g : BitVec 32) : List Out := [bothOut o (.scalar (BitVec.ofNat 64 n) false) c g]
  let plain : Prop := sl.lit0.extractLsb' 24 40 = 0
  let chest := s.chestOf f.core f.ctx
  match i with
  | .stadv o => do
    let _ ← tokenBeside f o 5
    guard (y.rstg < 65535)
    some { outs := num o (y.rstg + 1) }
  | .cnadd o => do
    let (v, _, _) ← valueOperand (operand f sl [0, 1, 3, 5, 6] o.srcA)
    guard (o.srcB = 0 ∨ o.srcB = 1 ∨ o.srcB = 5)
    let (r, row, col) ← counterOf s f sl x false 2
    some { outs := num o 0, job := .counterAdd h r (row * dim r.shape 1 + col) v.toNat, entry := some (2, 10, h, r.gen, v) }
  | .cnwt o => do
    let (v, _, _) ← valueOperand (operand f sl [0, 1, 5, 6] o.srcA)
    guard (o.srcB = 0 ∨ o.srcB = 1)
    let t ← f.tok o.srcB
    let (r, row, _) ← counterOf s f sl x true 0
    let p := dim r.shape 1
    guard (sl.lit1.toNat < 2^p)
    some { outs := fun c g => [{ codes := [o.dest0.toNat], val := .forward t, col := c, tag := g }, zero o.dest1 c g],
           job := .counterWait h r (((List.range p).filter fun j => sl.lit1 == 0 || sl.lit1.getLsbD j).map fun j => row * p + j)
             (v.toNat + (sl.lit0.extractLsb' 49 8).toNat),
           entry := some (0, 11, h, r.gen, v) }
  | .cnrd o => do
    guard (o.srcB = 5 ∧ (operand f sl [0, 1] o.srcA).ok = true)
    let (r, row, col) ← counterOf s f sl x false 0
    some { outs := num o 0, job := .counterRead h r (row * dim r.shape 1 + col), entry := some (0, 12, h, r.gen, 0) }
  | .shop o => shadowWork false o s f sl
  | .publ o => shadowWork true o s f sl
  | .nmiv o => do
    let sub := (sl.lit0.extractLsb' 30 6).toNat
    let (v, vu, _) ← valueOperand (operand f sl [0, 1, 3, 5, 6] o.srcA)
    let (w, wu, _) ← valueOperand (operand f sl [0, 1, 3, 5, 6] o.srcB)
    guard (sl.lit0.extractLsb' 24 6 = 0 ∧ ¬(5 ≤ sub ∧ sub ≤ 15))
    let r ← record? s f h 0 2
    guard (r.st ≠ 4 ∧ (sub < 5 → r.fmt ∈ [0, 1, 6, 7, 8, 9]))
    let c ← firingCoord f x sl.lit0 1 1 [0, 0, 0, 0, 0, 0]
    let t := mkAccess y sl h r c [0] 1 0 0
    guard (t.someOut = false ∧ (r.owner = s.devId → s.inHbm t = true))
    let fit (w : Word) (u : Bool) : Word := if u ∧ sub < 5 ∧ fmtIsFloat r.fmt = true then encodeFp64 (Val.ofInt w.toNat) else w
    some { outs := fun c g => if r.owner = s.devId ∧ 16 ≤ sub ∧ Config.nmColumns sub ≠ 0 then
               [bothOut o (.newTile ((xfShape 1 (min 64 (Config.nmColumns sub))).desc false) [] false) c g]
             else [zero o.dest0 c g, zero o.dest1 c g],
           job := .invoke t sub (fit v vu) (fit w wu), entry := some (2, 15, h, r.gen, v) }
  | .mcst o => do
    let e := sl.lit1
    guard (o.srcA = 0 ∨ o.srcA = 1)
    let t ← f.tok o.srcA
    let grp ← match operand f sl [0, 1, 3] o.srcB with
      | .scalar q => some (q.w0.extractLsb' 0 8).toNat
      | .lit w => some (w.extractLsb' 13 8).toNat
      | _ => none
    guard (sl.lit0 = 0 ∧ entryOk e = true ∧ e.getLsbD 62 = true ∧ e.getLsbD 21 = true ∧ (e.extractLsb' 22 2).toNat < 2)
    let q ← x.groups.find? fun q => q.1 == grp
    guard ((f.ctx, grp) ∉ s.flow.foreign)
    let n := (maskCores q.2).length - (if q.2.getLsbD f.core && x.excl.getLsbD grp then 1 else 0)
    some { outs := fun c g => [{ codes := [],
                                 val := .multicast (BitVec.ofNat 64 (e.toNat - (e.extractLsb' 13 8).toNat * 8192 + grp * 8192)) t, col := c, tag := g },
                               bothOut o (.scalar (BitVec.ofNat 64 n) false) c g] }
  | .cmpr o => do
    let t ← tokenBeside f o 5
    guard (sl.lit0.extractLsb' 27 37 = 0)
    let r ← record? s f h 0 0
    let off := byteOffset sl t
    guard (r.isBytes r.owner = true ∧ off % 64 = 0 ∧ off + 64 ≤ dim r.shape 1)
    some { outs := fun c g => [zero o.dest0 c g, zero o.dest1 c g], job := .completion (byteAccess y sl h r off 64) (sl.lit0.extractLsb' 24 3).toNat,
           entry := some (0, 21, h, r.gen, 0) }
  | .lnchOperator o => do
    let t ← tokenBeside f o 5
    guard plain
    match s.launchRecord f.ctx h (byteOffset sl t) with
    | .rejected _ | .unreadable _ => none
    | .at a => some { outs := num o 0, job := .launch a, entry := some (2, 22, 0, 0, 0) }
  | .chsv o => do
    let t ← tokenBeside f o 2
    guard plain
    let r ← record? s f h 0 1
    let off := byteOffset sl t
    guard (r.isBytes r.owner = true ∧ off % 32 = 0 ∧ off + 32 * chest.length ≤ dim r.shape 1)
    some { outs := num o chest.length, entry := some (1, 1, h, r.gen, 0),
           job := .snapshot (byteAccess y sl h r off (32 * chest.length)) (chest.flatMap fun e => leBytes 32 e.word.toNat) }
  | .chrs o => do
    let _ ← tokenBeside f o 5
    let n (k : Nat) : Nat := chest.countP fun e => e.st == k
    some { outs := num o (chest.length + 2^8 * n 0 + 2^16 * n 1 + 2^24 * n 2) }
  | .chrp o => do
    let t ← tokenBeside f o 5
    some { outs := fun c g => [bothOut o (.forward t) c g], job := .chestWait, entry := some (0, 9, 0, 0, 0) }
  | .tkrp o => do
    let t ← tokenBeside f o 5
    guard (t.isTile = false)
    let b ← (s.benchOf f.core).find? fun b => b.ctx == f.ctx && b.ref == t.w0
    guard (b.wait = false)
    some { outs := fun c g => [zero o.dest0 c g, zero o.dest1 c g], job := .ticketResult b.idx }
  | .tkcl o => do
    let _ ← tokenBeside f o 5
    guard plain
    some { outs := fun _ _ => [] }
  | .tkq o => do
    let _ ← tokenBeside f o 5
    let n (p : Nat → Bool) : Nat := (s.benchOf f.core).countP fun b => b.ctx == f.ctx && p b.st
    some { outs := num o (n (· == 0) + 2^8 * n (· == 1) + 2^16 * n (fun k => k == 2 || k == 5) + 2^24 * n (· == 3) + 2^32 * n (· == 4)) }
  | .bara o => do
    guard (o.srcB = 2 ∧ (operand f sl [0, 1] o.srcA).ok = true)
    let r ← record? s f h 2 2
    some { outs := num o 0, job := .barrierArrive h r, entry := some (2, 13, h, r.gen, 0) }
  | .barw o => do
    let t ← tokenBeside f o 2
    guard (t.isTile = false)
    let r ← record? s f h 2 0
    some { outs := num o 0, job := .barrierWait h r (t.w0.extractLsb' 0 32).toNat, entry := some (0, 14, h, r.gen, t.w0) }
  | _ => none

/-- The Chest entry stands, as the next of its context's order on the core (R286). -/
def Entered (t : State) (f : Firing) (y : CoreCtx) (e : Option (Nat × Nat × Nat × Nat × Word)) : Prop :=
  ∀ cls kind h gen arg, e = some (cls, kind, h, gen, arg) →
    ∃ q ∈ t.msys.chest, q.core = f.core ∧ q.ctx = f.ctx ∧ q.order = y.order ∧ q.st = 0 ∧ q.cls = cls ∧ q.kind = kind ∧ q.handle = h ∧ q.gen = gen
      ∧ q.arg = arg ∧ q.fid = f.id

/-- What else such an operator does at issue: STADV counts, SHOP and PUBL join the object's queue, TKRP marks its entry, TKCL frees the
entries of its block, those made through another proxy of the object too, and raises object access. -/
def asyncToo (i : Instr) (s : State) (f : Firing) (sl : Slot) (y : CoreCtx) (t : State) : Prop :=
  let h := handleOf sl.lit0
  match i with
  | .stadv _ => ∃ z, t.cctx? f.core f.ctx = some z ∧ z.rstg = y.rstg + 1
  | .shop _ => ∃ q, t.msys.hub = s.msys.hub ++ [q] ∧ q.handle = h ∧ q.op = .shop ∧ q.fid = some f.id
  | .publ _ => ∃ q, t.msys.hub = s.msys.hub ++ [q] ∧ q.handle = h ∧ q.op = .publ ∧ q.fid = some f.id
  | .tkrp o => ∀ q b, tokenBeside f o 5 = some q → (s.benchOf f.core).find? (fun b => b.ctx == f.ctx && b.ref == q.w0) = some b →
      ∀ e ∈ t.msys.bench, e.core = f.core → e.idx = b.idx → e.wait = true
  | .tkcl _ => (s.runs f.ctx = true → s.isSealed f.ctx f.sect = false → ∃ k, (f.ctx, f.sect, k) ∈ t.flow.seals)
      ∧ ∀ e ∈ t.msys.bench, e.core = f.core → e.ctx = f.ctx →
          (match s.obj? h with
            | some r => if r.owner = s.devId then e.handle = h else e.owner = r.owner ∧ e.ohandle = r.base % 2^24
            | none => e.handle = h) →
          ¬ e.forBlocks.contains sl.lit1.toNat
  | _ => True

end Sys2Proof.Claims

/-- R189, R190, R269 to R279, R312, R348: the asynchronous, Chest, ticket and barrier operators issue with their work, their Chest entry and their
result.
Readings of the model: logs 43, 48, 55, 92. -/
def Obligations.AsyncOperators : Prop :=
  ∀ (i : Instr) (s : State) (f : Firing) (sl : Slot) (y : CoreCtx) (x : Ctx) (w : Work), Issuing i s f sl y x → SoundTiles s f → NoPoison f →
    asyncWork i s f sl y x = some w →
    Sends i s f sl y x false w.cost w.occ w.outs w.job fun t => Entered t f y w.entry ∧ asyncToo i s f sl y t

/-- R127 to R135, R242 to R249, R286: the operators of tiles, scalars, atomics, fences and RPUSH issue with their access, their Chest entry and
their result; an access that lies wholly outside its shape needs neither. RPOP of a ring issues with a ck and a unit, its Chest entry and its
work; it holds or asks for the run of scratchpad of the largest tile of a ring slot.
Readings of the model: logs 7, 41, 42. -/
def Obligations.MemoryOperators : Prop :=
  (∀ (i : Instr) (s : State) (f : Firing) (sl : Slot) (y : CoreCtx) (x : Ctx) (w : Work), Issuing i s f sl y x → SoundTiles s f → NoPoison f →
    memoryWork i s f sl y x = some w →
    Sends i s f sl y x false w.cost w.occ w.outs w.job fun t => Entered t f y w.entry)
  ∧ ∀ (s : State) (o : OpFields) (f : Firing) (sl : Slot) (y : CoreCtx) (x : Ctx) (r : ObjRec) (col : Nat) (tag : BitVec 32),
      Issuing (.rpop o) s f sl y x → NoPoison f → (operand f sl [0, 1] o.srcA).ok = true → o.srcB = 2 → sl.lit0.extractLsb' 24 40 = 0 →
      record? s f (handleOf sl.lit0) 1 0 = some r → Outgoing o f sl y x false col tag → fmtBits r.fmt ≤ 8 * dim r.shape 1 →
      let form := fmtPlane r.fmt
      let bytes := tileBytes form.1 1 (min 4096 (8 * dim r.shape 1 / fmtBits r.fmt)) form.2.1 form.2.2
      ∃ t g, exec (.rpop o) s = .next t ∧ Issued s t f sl y 1 1 [bothOut o .eos col tag] (.pop (handleOf sl.lit0) r) col tag
        ∧ Entered t f y (some (2, 8, handleOf sl.lit0, r.gen, 0)) ∧ t.firing? f.id = some g
        ∧ ((∃ i a, g.psum = some i ∧ a ∈ t.flow.allocs ∧ a.core = f.core ∧ a.idx = i ∧ a.len = (bytes + 511) / 512)
          ∨ { core := f.core, bytes := bytes, who := .psum f.id : AllocReq } ∈ t.flow.reqs)

/-- R116: a firing that faults at issue consumes its tokens, releases their tiles, asks for its section's seal and has no other effect: no energy,
no Chest entry, no result, no byte.
Readings of the model: logs 17, 39. -/
def Obligations.FaultsAtIssueOnlySeal : Prop :=
  ∀ (i : Instr) (s : State) (f : Firing) (sl : Slot) (y : CoreCtx) (x : Ctx) (p : State → Firing → Slot → CoreCtx → Ctx → Plan) (k : Nat),
    Issuing i s f sl y x → planOf i = some p → (p { s with firing := none } f sl y x).fault = some k →
    ∃ t, exec i s = .next t ∧ t.firing = none ∧ t.flow.firings = s.flow.firings ∧ t.cores = s.cores ∧ t.msys = s.msys ∧ t.ctls = s.ctls
      ∧ t.flow.allocs = (s.dropTiles f.core f.toks).flow.allocs ∧ t.flow.net = s.flow.net ∧ (∀ a, t.byteAt a = s.byteAt a)
      ∧ (s.runs f.ctx = true → s.isSealed f.ctx f.sect = false → ∃ k', (f.ctx, f.sect, k') ∈ t.flow.seals)

/-- R118, R127, R136, R182, R44, R45: issuing an operator writes no byte of device memory and changes no control core, but that TRAPO gives the
control core of its own core a notice and PEND bit 34; a sticky flag that is 1 stays 1, and no flag of another engine changes. -/
def Obligations.IssueFrame : Prop :=
  ∀ (i : Instr) (s t : State) (f : Firing), (planOf i).isSome = true → s.Inv → s.firing = some f → exec i s = .next t →
    (∀ k, ¬((∃ o, i = .trapo o) ∧ k = f.core) → t.ctl k = s.ctl k)
    ∧ { t.ctl f.core with status := (s.ctl f.core).status, trapos := (s.ctl f.core).trapos, raised := (s.ctl f.core).raised } = s.ctl f.core
    ∧ (∀ j, j ≠ 34 → (t.ctl f.core).status.getLsbD j = (s.ctl f.core).status.getLsbD j)
    ∧ (∀ a, a < 2^48 → t.byteAt a = s.byteAt a) ∧ t.fabric.ports = s.fabric.ports ∧ (∃ l, t.host = { s.host with log := s.host.log ++ l }) ∧ t.ck = s.ck
    ∧ ∀ c z y, s.cctx? c z = some y → ∃ y', t.cctx? c z = some y' ∧ y'.fpmode = y.fpmode
        ∧ ∀ j, (y.fpflags.getLsbD j = true → y'.fpflags.getLsbD j = true)
          ∧ (j < flagShift f.eng ∨ flagShift f.eng + 5 ≤ j → y'.fpflags.getLsbD j = y.fpflags.getLsbD j)

/-- R116, R132, R134, R243, R244, R247, R268, R271: poison never reaches memory. Whatever else holds, a TST, SST, RPUSH or CHSV whose operand is
poison, a TSTS whose data or indices are, and an atomic, CNADD or NMIV with a poison token start no access: each faults, or halts for its
object. An operator whose object translates and whose place is legal faults with poison store.
Readings of the model: log 39. -/
def Obligations.PoisonNeverReachesMemory : Prop :=
  (∀ (s : State) (o : OpFields) (f : Firing) (sl : Slot) (y : CoreCtx) (x : Ctx),
    let starts (p : Plan) : Prop := p.fault = none ∧ p.halt = none
    (∀ t, f.tok o.srcA = some t → t.isPoison = true →
      ¬ starts (planTst o s f sl y x) ∧ ¬ starts (planSst o s f sl y x) ∧ ¬ starts (planRpush o s f sl y x) ∧ ¬ starts (planChsv o s f sl y x))
    ∧ (∀ t, (f.a = some t ∨ f.b = some t) → t.isPoison = true → ¬ starts (planTsts o s f sl y x))
    ∧ (¬ NoPoison f → (∀ op, ¬ starts (atomPlan op o s f sl y x)) ∧ ¬ starts (planCnadd o s f sl y x) ∧ ¬ starts (planNmiv o s f sl y x)))
  ∧ ∀ (s : State) (o : OpFields) (f : Firing) (sl : Slot) (y : CoreCtx) (x : Ctx) (r : ObjRec),
    let h := handleOf sl.lit0
    let placed (d : Token) : Prop := record? s f h 0 1 = some r ∧ ∃ c, firingCoord f x sl.lit0 (six sl.lit0 24) (six sl.lit0 30) [0, 0, 0, 0, 0, 0] = some c
      ∧ (r.rank = 1 → d.desc.rows = 1) ∧ dim c 1 % r.group = 0 ∧ d.desc.cols % r.group = 0
      ∧ (r.had = true → dim c 1 % 32 = 0 ∧ d.desc.cols % 32 = 0)
    (∀ d, tokenBeside f o 2 = some d → d.isPoison = true → d.isTile = true → placed d → (planTst o s f sl y x).fault = some 5)
    ∧ (∀ d t, o.srcA = 0 → o.srcB = 1 → f.a = some d → f.b = some t → d.isTile = true → t.isTile = true → t.desc.kind = 0 → t.desc.cols = 1 →
        t.desc.rows = d.desc.rows → placed d →
        (t.isPoison = true ∨ (d.isPoison = true ∧ s.tileEcc f.core t = false ∧ ∃ rows, rowsOfIndex s f t = some rows ∧ rows.length = d.desc.rows)) →
        (planTsts o s f sl y x).fault = some 5)
    ∧ (∀ v u c, valueOperand (operand f sl [0, 1, 3, 5, 6] o.srcA) = some (v, u, true) → o.srcB = 2 → record? s f h 0 1 = some r →
        firingCoord f x sl.lit0 (six sl.lit0 24) (six sl.lit0 30) [0, 0, 0, 0, 0, 0] = some c → (planSst o s f sl y x).fault = some 5)
    ∧ (∀ op p, (op, p) ∈ [(0, planAtad), (1, planAtmn), (2, planAtmx), (3, planAtxc), (4, planAtcs)] →
        (valueOperand (operand f sl (if op = 4 then [0, 1, 5, 6] else [0, 1, 3, 5, 6]) o.srcA)).isSome = true →
        (o.srcB = 0 ∨ o.srcB = 1 ∨ o.srcB = 5) → sl.lit0.extractLsb' 27 9 = 0 → (sl.lit0.extractLsb' 24 3).toNat ≤ 6 →
        record? s f h 0 2 = some r → r.st ≠ 4 → r.fmt ∈ [0, 1, 6, 7, 8, 9] → ¬ NoPoison f → (p o s f sl y x).fault = some 5)
    ∧ ((valueOperand (operand f sl [0, 1, 3, 5, 6] o.srcA)).isSome = true → (o.srcB = 0 ∨ o.srcB = 1 ∨ o.srcB = 5) →
        (counterOf s f sl x false 2).isSome = true → ¬ NoPoison f → (planCnadd o s f sl y x).fault = some 5)
    ∧ ∀ t, tokenBeside f o 2 = some t → t.isPoison = true → t.isTile = true → sl.lit0.extractLsb' 24 40 = 0 → record? s f h 1 1 = some r →
        t.desc.rows * t.desc.cols * fmtBits r.fmt ≤ 8 * dim r.shape 1 → (planRpush o s f sl y x).fault = some 5

namespace Sys2Proof.Claims

/-! ### Events: what the machine does by itself -/

/-- The kind, poison mark and payload words of the token that carries a result (R70, R71). -/
def payload : OutVal → Option (Nat × Bool × Word × Word)
  | .scalar w p => some (if p then 6 else 1, p, w, 0)
  | .tile d d1 p => some (if p then 5 else 0, p, if p then d ||| BitVec.twoPow 64 43 else d &&& ~~~(BitVec.twoPow 64 43), d1)
  | .forward t => some (t.kind, t.psn, t.w0, t.w1)
  | .pred b => some (2, false, if b then 1 else 0, 0)
  | .eos => some (3, false, 0, 0)
  | .errorEos => some (4, false, 0, 0)
  | _ => none

/-- A token of firing f, given but for its sequence number, is in flight on this device; or it has left for another device as a packet of class 2,
or waits behind refused tokens of its source and destination (R293, R327). A tile for another core, or a copy, takes its bytes along (R20). -/
def Goes (s t : State) (f : Firing) (dev : Option Nat) (copy : Bool) (tok : Token) : Prop :=
  ∃ q : NetTok, q.srcCore = f.core ∧ q.srcEng = f.eng ∧ q.toDev = dev ∧ { q.tok with seq := 0 } = tok
    ∧ q.body = (if (tok.kind = 0 ∨ tok.kind = 5) ∧ (copy = true ∨ dev.isSome = true ∨ tok.core ≠ f.core)
        then some (s.tileBytes f.core (Desc.ofWords tok.w0 tok.w1)) else none)
    ∧ match dev with
      | none => q ∈ t.flow.net
      | some d => if ∃ r ∈ s.fabric.refused, r.srcCore = f.core ∧ r.toDev = some d ∧ r.tok.core = tok.core then q ∈ t.fabric.refused
        else ∃ p ∈ t.fabric.packets, p.srcDev = s.devId ∧ p.srcCore = f.core ∧ p.dstDev = d ∧ p.cls = 2 ∧ p.poison = tok.psn ∧ p.body = .token q

/-- A seal of the firing's section is asked for, with one of some kinds where none was before (R282). -/
def Seals (s t : State) (f : Firing) (kinds : List Nat) : Prop :=
  s.runs f.ctx = true → s.isSealed f.ctx f.sect = false →
    ∃ k, (f.ctx, f.sect, k) ∈ t.flow.seals ∧ ((∀ q ∈ s.flow.seals, ¬(q.1 = f.ctx ∧ q.2.1 = f.sect)) → k ∈ kinds)

/-- A result is an orphan of its context. -/
def Orphaned (s t : State) (f : Firing) : Prop := ∀ x, s.ctx? f.ctx = some x → ∃ z, t.ctx? f.ctx = some z ∧ x.orph < z.orph

/-- What the send of a token through a destination entry comes to, where `mk` gives the token for a core, engine, slot and port (R66, R67, R170,
R215): it goes to its target on this or another device; a multicast to each member of its group, but for the sender where the group excludes
it, an empty group's to none; an invalid entry's or a foreign group's result is an orphan, and the section faults, as it does for a group
that is not valid. -/
def Through (s t : State) (f : Firing) (e : Word) (mk : Nat → Eng → Nat → Nat → Token) : Prop :=
  let at_ (c : Nat) : Token := mk c (engOfCode (e.extractLsb' 33 2).toNat) (e.extractLsb' 24 9).toNat (e.extractLsb' 22 2).toNat
  let dev := (e.extractLsb' 44 18).toNat
  let grp := (e.extractLsb' 13 8).toNat
  let kinds := [11, 12, 13]
  if e.getLsbD 63 = false then Orphaned s t f ∧ Seals s t f kinds
  else if e.getLsbD 21 = false then Goes s t f (if e.getLsbD 62 = true ∨ dev = s.devId then none else some dev) false (at_ (e.extractLsb' 35 9).toNat)
  else ∀ x, s.ctx? f.ctx = some x → match x.groups.find? (fun g => g.1 == grp) with
    | none => Seals s t f kinds
    | some (_, members) =>
      if (f.ctx, grp) ∈ s.flow.foreign then Orphaned s t f ∧ Seals s t f kinds
      else if members = 0 then (t.ctx? f.ctx).map (·.empty) = some true
      else ∀ c, c < 384 → members.getLsbD c = true → ¬(c = f.core ∧ x.excl.getLsbD grp = true) → Goes s t f none true (at_ c)

/-- A result of firing f goes to the target of destination code c: nowhere for 0, home for 127 (R28), else through its entry. -/
def Carries (s t : State) (f : Firing) (c col : Nat) (tag : BitVec 32) (v : OutVal) : Prop :=
  ∀ k psn w0 w1, payload v = some (k, psn, w0, w1) →
    let mk (core : Nat) (eng : Eng) (slot port : Nat) : Token :=
      { core := core, eng := eng, slot := slot, port := port, ctx := f.ctx, col := col, kind := k, sect := f.sect, psn := psn, seq := 0, tag := tag, w0 := w0, w1 := w1 }
    if c = 0 then True else if c = 127 then Goes s t f none false (mk f.core .c 0 0) else Through s t f (s.dest f.core f.ctx f.eng c) mk

/-- What a debug operator has done once its firing has sent (R316, R317): DBRK has set the comparator that lit0 names in its own core's control
core, if its context owns it; DSTP, while `dolz` is attached, has stopped its engine with reason 4, with its record in the save object, and
`dolz` has the stop and holds the context; DHLD then has raised a cause of a halt. Otherwise, and for every other operator, no engine is
stopped, no cause raised and no control core changed. -/
def DebugDone (s t : State) (f : Firing) (x : Ctx) (y : CoreCtx) : Prop :=
  let acts (op : Nat) : Prop := f.op = op ∧ f.eos = false
  let r := StopInfo.word { ck := s.ck, tag := f.tag.toNat, sect := f.sect, reason := 4, ctx := f.ctx, col := f.col, slot := f.slot, core := f.core,
                           e := engCode f.eng, valid := true }
  let lit := ((s.slot? f.core f.ctx f.eng f.slot).map (·.lit0)).getD 0
  (∀ j, t.ctl j = if acts 0xA4 ∧ j = f.core ∧ (s.ctl f.core).owner = some f.ctx
    then { s.ctl j with cmps := (s.ctl j).cmps.set (lit.extractLsb' 61 2).toNat (lit.getLsbD 63, (lit.extractLsb' 2 15).toNat) } else s.ctl j)
  ∧ ∃ z w, t.cctx? f.core f.ctx = some z ∧ t.ctx? f.ctx = some w
    ∧ (if acts 0xA5 ∧ x.dolz = true then
        z.stops = y.stops ++ [{ e := engCode f.eng, reason := 4, record := r, stepped := none }] ∧ w.watch.held = some s.ck
          ∧ t.host.log = s.host.log ++ [.stopLine f.ctx f.core (engCode f.eng) f.slot f.col f.tag (.stop 4) (x.runTime s.ck)]
          ∧ ∀ a, s.saveBase? f.ctx f.core = some a → t.readNat (a + 64 * engCode f.eng) 64 = r.toNat
      else z.stops = y.stops ∧ w.watch.held = none ∧ t.host.log = s.host.log)
    ∧ w.causes = x.causes ++ if acts 0xA6 ∧ x.dolz = true
        then [{ kind := 0, core := f.core, e := engCode f.eng, slot := f.slot, handle := 0, gen := 0, block := 0, order := none }] else []

/-- The slot sl of a running section takes the token (R16, R30, R162). -/
structure Takes (s : State) (t : Token) (y : CoreCtx) (sl : Slot) : Prop where
  ctx : ∃ x q, s.ctx? t.ctx = some x ∧ x.phase = .resident ∧ x.watch.held = none ∧ x.section? sl.sect = some q ∧ q.finished = false ∧ q.sealed = false
  core : s.cctx? t.core t.ctx = some y
  held : y.part = none
  eng : t.eng ≠ .c
  slot : s.slot? t.core t.ctx t.eng t.slot = some sl
  live : ∃ q, (y.sects.find? fun q => q.sect == sl.sect) = some q ∧ q.spent = false

/-- The token goes to the receive queue of its core's control core, which has room (R28). -/
structure TakenIn (s : State) (t : Token) : Prop where
  ctx : ∃ x, s.ctx? t.ctx = some x ∧ x.phase = .resident ∧ x.watch.held = none
  core : ∃ y, s.cctx? t.core t.ctx = some y ∧ y.part = none
  eng : t.eng = .c
  owner : (s.ctl t.core).owner = some t.ctx
  room : (s.ctl t.core).rq.length < 64

/-- Token q must be placed before nt: they share a channel, or a route, on which a predicate and a data token do not hold each other (R17, R28,
R179, R216). -/
def GoesFirst (q nt : NetTok) : Prop := q.lane = nt.lane ∨ (q.sameRoute nt = true ∧ (q.tok.kind = 2 ↔ nt.tok.kind = 2))

/-- A token's engine has neither issued nor asked for a colour in this ck (R23, R166). -/
def EngineStill (s : State) (t : Token) : Prop := t.eng = .c ∨ (s.issuedNow t.core t.eng = false ∧ s.askedNow t.core t.eng = false)

/-- Token n in flight is the oldest of its route, nothing at the ingress goes before it, and it brings no tile. -/
structure Arriving (s : State) (n : Nat) (nt : NetTok) : Prop where
  here : s.flow.net[n]? = some nt
  first : ∀ q ∈ s.flow.net.take n, q.sameRoute nt = false
  lane : ∀ q ∈ s.flow.ingress, ¬ GoesFirst q nt
  plain : nt.body = none

/-- The lowest free run of n granules on a core (R12). -/
structure LowestRun (s : State) (core n base : Nat) : Prop where
  fits : base + n ≤ 4608
  free : ∀ a ∈ s.flow.allocs, a.core = core → a.base + a.len ≤ base ∨ base + n ≤ a.base
  lowest : ∀ b, b < base → ∃ a ∈ s.flow.allocs, a.core = core ∧ ¬(a.base + a.len ≤ b ∨ b + n ≤ a.base)

end Sys2Proof.Claims

/-- R26, R19, R28, R66, R67, R161, R167, R176, R184, R188, R215, R248, R314, R316, R317: a Drawer that matched EOS sends EOS to each destination (SINK and SEAL to none) with its tag action applied, costs nothing
and does not count; at RPUSH it pushes a marker. FIRING_RESULT_SEND sends each result to its destinations as the tokens of R70 and R71 (home, to this
or another device, or to the members of a group; a result for an entry that is not valid is an orphan, and invalid destination is raised), FORK
one copy a time, and a sealed section's results go nowhere; a colour that it frees is due back in the next ck. A debug operator that has
sent sets its comparator, stops its engine or raises its cause, the last two while `dolz` is attached.
Readings of the model: logs 44, 45, 55. -/
def Obligations.FiringsSendTheirResults : Prop :=
  ∀ (s : State), s.Inv →
    (∀ f sl y x col tag, s.firing = some f → s.slot? f.core f.ctx f.eng f.slot = some sl → s.cctx? f.core f.ctx = some y → s.ctx? f.ctx = some x →
      s.firing? f.id = none → Outgoing (wordFields sl.word) f sl y x false col tag →
      (wordOp sl.word ≠ 0x2B → Answers .eosFiring s fun t => t.firing = none ∧
        (∃ g, t.firing? f.id = some g ∧ g.due = s.ck + swapOf s f y + 1 ∧ g.job = .none
          ∧ g.outs = [{ codes := if wordOp sl.word = 0x90 ∨ wordOp sl.word = 0xA2 then [0, 0] else opDests (wordFields sl.word), val := .eos, col := col, tag := tag }])
        ∧ ∃ z, t.cctx? f.core f.ctx = some z ∧ z.sects = y.sects ∧ z.ebudget = y.ebudget ∧ z.shortfall = y.shortfall)
      ∧ ∀ r, wordOp sl.word = 0x2B → sl.lit0.extractLsb' 24 40 = 0 → s.translate f.ctx (handleOf sl.lit0) 1 1 = .ok r → r.owner = s.devId →
        Answers .eosFiring s fun t => t.firing = none ∧
          (∃ g, t.firing? f.id = some g ∧ g.job = .push (handleOf sl.lit0) r 0 0 1 (objMode y sl r) ∧ g.due = s.ck + swapOf s f y + 1)
          ∧ (∃ q ∈ t.msys.chest, q.core = f.core ∧ q.ctx = f.ctx ∧ q.fid = f.id ∧ q.cls = 2 ∧ q.kind = 7 ∧ q.handle = handleOf sl.lit0 ∧ q.st = 0)
          ∧ ∃ z, t.cctx? f.core f.ctx = some z ∧ z.sects = y.sects ∧ z.ebudget = y.ebudget - 4^sl.ecls)
    ∧ ∀ fid f, s.firing? fid = some f → f.phase = .working → s.runs f.ctx = true → f.job = .none → f.inOrder = false →
      (f.forks = false → f.due ≤ s.ck → Answers (.firingResultSend fid) s fun t =>
        (∀ g, t.firing? fid = some g → g.phase = .sent)
        ∧ (f.sealed = true → t.flow.net = s.flow.net)
        ∧ (f.sealed = false → ∀ o ∈ f.outs, ∀ c ∈ o.codes, Carries s t f c o.col o.tag o.val)
        ∧ (∀ c, f.freeCol = some c → (⟨f.core, f.ctx, c, s.ck + 1⟩ : ColourBack) ∈ t.flow.returns)
        ∧ (f.sealed = false → ∀ x y, s.ctx? f.ctx = some x → s.cctx? f.core f.ctx = some y → (∀ q ∈ y.stops, q.stepped ≠ some f.id) → f.order = none →
            DebugDone s t f x y)
        ∧ ∀ o c, f.sealed = false → f.outs = [o] → o.codes = [c, 0] → (payload o.val).isSome = true → c ≠ 0 → c ≠ 127 →
            (s.dest f.core f.ctx f.eng c).getLsbD 63 = false → t.flow.net = s.flow.net ∧ Seals s t f [11]
              ∧ ∀ x, s.ctx? f.ctx = some x → (t.ctx? f.ctx).map (·.orph) = some (x.orph + 1))
      ∧ ∀ o rest, f.forks = true → f.outs = o :: rest → 2 ≤ rest.length → f.due + 2 ≤ s.ck + f.outs.length → f.sealed = false →
        Answers (.firingResultSend fid) s fun t => (∀ c ∈ o.codes, Carries s t f c o.col o.tag o.val)
          ∧ ∃ g, t.firing? fid = some g ∧ g.outs = rest

/-- R14, R16, R22, R27, R28, R30, R178, R179, R216, R314: a token that arrives is a stray of an unknown context, an orphan at an unloaded slot, joins a
receive queue, waits behind what goes before it, opens a Drawer, or fills one that then joins the ready order; an error-EOS empties the Drawers of
its colour and passes to the slot's destinations, at SINK and SEAL to none; tokens at the ingress and tile packets are placed when room is free.
Which tokens wait for one another is the model's reading (log 56: a local token passes one of the network; log 75: a predicate to a control core
passes data).
Readings of the model: logs 23, 37, 40, 53, 56, 75, 82. -/
def Obligations.TokensArrive : Prop :=
  ∀ (s : State), s.Inv →
    (∀ n nt, Arriving s n nt → nt.tok.kind ≠ 4 → EngineStill s nt.tok →
      (s.ctx? nt.tok.ctx = none → Answers (.tokenArrival n) s fun t =>
        t.host.log = s.host.log ++ [.stray nt.tok.h0 nt.tok.h1] ∧ t.flow.net = s.flow.net.eraseIdx n)
      ∧ (∀ x y, s.ctx? nt.tok.ctx = some x → x.phase = .resident → x.watch.held = none → s.cctx? nt.tok.core nt.tok.ctx = some y → y.part = none → nt.tok.eng ≠ .c →
          nt.tok.kind = 1 → s.slot? nt.tok.core nt.tok.ctx nt.tok.eng nt.tok.slot = none → Answers (.tokenArrival n) s fun t =>
            (t.ctx? nt.tok.ctx).map (·.orph) = some (x.orph + 1) ∧ t.flow = { s.flow with net := s.flow.net.eraseIdx n })
      ∧ (TakenIn s nt.tok → Answers (.tokenArrival n) s fun t =>
          t.ctl nt.tok.core = { s.ctl nt.tok.core with rq := (s.ctl nt.tok.core).rq ++ [nt.tok] } ∧ t.flow = { s.flow with net := s.flow.net.eraseIdx n })
      ∧ ∀ y sl, Takes s nt.tok y sl → sl.declares 0 = true → sl.declares 1 = true → sl.declares 2 = false → wordOp sl.word ≠ 0x82 →
          nt.tok.kind ∈ [0, 1, 5, 6] → nt.tok.port < 2 → y.eosPassed sl.eng sl.slot nt.tok.col nt.tok.port = false →
          let key (d : Drawer) : Prop := d.core = nt.tok.core ∧ d.ctx = nt.tok.ctx ∧ d.eng = nt.tok.eng ∧ d.slot = nt.tok.slot ∧ d.col = nt.tok.col
          ((∀ d ∈ s.flow.drawers, ¬ key d) → s.engineDrawers nt.tok.core nt.tok.eng < 256 → Answers (.tokenArrival n) s fun t =>
            ∃ d, t.flow = { s.flow with net := s.flow.net.eraseIdx n, drawers := s.flow.drawers ++ [d] } ∧ key d ∧ d.overflow = none ∧ d.p = none
              ∧ d.a = (if nt.tok.port = 0 then some nt.tok else none) ∧ d.b = if nt.tok.port = 1 then some nt.tok else none)
          ∧ ∀ i d q, s.flow.drawers[i]? = some d → (∀ j e, s.flow.drawers[j]? = some e → key e → j = i) → key d → nt.tok.port = 1 →
            d.a = some q → q.kind ≠ 3 → d.b = none → Answers (.tokenArrival n) s fun t =>
              t.flow.drawers = s.flow.drawers.eraseIdx i ∧ t.flow.net = s.flow.net.eraseIdx n
              ∧ ∃ r, t.flow.ready = s.flow.ready ++ [r] ∧ r.core = d.core ∧ r.ctx = d.ctx ∧ r.eng = d.eng ∧ r.slot = d.slot ∧ r.col = d.col
                ∧ r.a = some q ∧ r.b = some nt.tok ∧ r.p = d.p ∧ r.ck = s.ck ∧ r.seq = s.flow.matchSeq)
    ∧ (∀ n nt q, s.flow.net[n]? = some nt → (∀ q ∈ s.flow.net.take n, q.sameRoute nt = false) → nt.tok.kind ≠ 4 → q ∈ s.flow.ingress → GoesFirst q nt →
        s.arrival nt.tok ≠ .hold → EngineStill s nt.tok → Answers (.tokenArrival n) s fun t => t.flow = { s.flow with net := s.flow.net.eraseIdx n, ingress := s.flow.ingress ++ [nt] })
    ∧ (∀ n nt y sl, Arriving s n nt → nt.tok.kind = 4 → nt.tok.port < 2 → Takes s nt.tok y sl → wordOp sl.word ≠ 0x2B →
        Answers (.errorEosArrival n) s fun t =>
          (∀ d ∈ t.flow.drawers, ¬(d.core = nt.tok.core ∧ d.ctx = nt.tok.ctx ∧ d.eng = nt.tok.eng ∧ d.slot = nt.tok.slot ∧ d.col = nt.tok.col))
          ∧ (wordOp sl.word = 0x90 ∨ wordOp sl.word = 0xA2 → t.flow.net = s.flow.net.eraseIdx n)
          ∧ ∀ c ∈ opDests (wordFields sl.word), ∀ f : Firing, wordOp sl.word ≠ 0x90 → wordOp sl.word ≠ 0xA2 → f.core = nt.tok.core → f.ctx = nt.tok.ctx → f.eng = nt.tok.eng → f.sect = sl.sect →
              Carries s t f c nt.tok.col nt.tok.tag .errorEos)
    ∧ (∀ n nt, s.flow.ingress[n]? = some nt → (∀ q ∈ s.flow.ingress.take n, ¬ GoesFirst q nt) → nt.body = none → nt.tok.kind ≠ 4 → TakenIn s nt.tok →
        Answers (.ingressHeldTokenPlace n) s fun t =>
          t.ctl nt.tok.core = { s.ctl nt.tok.core with rq := (s.ctl nt.tok.core).rq ++ [nt.tok] } ∧ t.flow.ingress = s.flow.ingress.eraseIdx n)
    ∧ ∀ core r nt bs base, s.flow.reqs.find? (fun r => r.core == core) = some r → r.who = .packet nt → nt.tok.core = core → nt.body = some bs →
        TakenIn s nt.tok → nt.tok.kind = 0 → LowestRun s core (((Desc.ofWords nt.tok.w0 0).bytes + 511) / 512) base →
        Answers (.tilePacketPlace core) s fun t =>
          ∃ d, (t.ctl core).rq = (s.ctl core).rq ++ [{ nt.tok with w0 := d, w1 := 0 }]
            ∧ HeldAs t core (.newTile nt.tok.w0 bs false) (.tile d 0 false) ∧ (Desc.ofWords d 0).addr = 512 * base

/-- R12, R26, R119, R143, R167, R177, R178, R180: the allocator grants its core's oldest request the lowest free run, the work area of a V operator that keeps a running
state included; an overflow Drawer moves into
a free place; a returned colour goes to the oldest waiter or its pool; a refill pays the shortfall first and keeps to the ceiling, and its
ck ends; a detected stall makes cause 16 pending on each control core of its context.
Readings of the model: logs 9, 16, 44, 59, 65, 74. -/
def Obligations.ResourcesReturnAndRefill : Prop :=
  ∀ (s : State), s.Inv →
    (∀ core r ctx base, s.flow.reqs.find? (fun r => r.core == core) = some r → r.who = .saveArea ctx → s.held ctx = false → LowestRun s core ((r.bytes + 511) / 512) base →
      Answers (.allocationGrant core) s fun t => (∃ a, t.flow.allocs = s.flow.allocs ++ [a] ∧ a.core = core ∧ a.ctx = ctx ∧ a.base = base
          ∧ a.len = (r.bytes + 511) / 512 ∧ a.refs = 1 ∧ ∀ y, s.cctx? core ctx = some y → t.cctx? core ctx = some { y with area := some a.idx })
        ∧ t.flow.reqs.length + 1 = s.flow.reqs.length)
    ∧ (∀ core r id f o desc bs p base, s.flow.reqs.find? (fun r => r.core == core) = some r → r.who = .firing id → s.firing? id = some f → s.runs f.ctx = true →
        (∀ q ∈ s.flow.reqs, q.core = core → q = r) → s.flow.reqs.count r = 1 → (∀ q ∈ s.flow.reqs, q.who ≠ .psum id ∧ (q.who = .firing id → q = r)) →
        f.op ≠ 0x2C → f.order = none → f.outs = [o] → o.val = .newTile desc bs p →
        LowestRun s core (((Desc.ofWords desc 0).bytes + 511) / 512 + if p then 0 else workArea f.op) base →
        Answers (.allocationGrant core) s fun t => ∃ g, t.firing? id = some g ∧ g.phase = .working ∧ g.due = max f.due (s.ck + f.busy)
          ∧ ∃ d, g.outs = [{ o with val := .tile d 0 p }] ∧ HeldAs t core o.val (.tile d 0 p) ∧ (Desc.ofWords d 0).addr = 512 * base)
    ∧ (∀ core eng i d, s.engineDrawers core eng < 256 → s.flow.drawers.findIdx? (fun d => d.core == core && d.eng == eng && d.overflow.isSome) = some i →
        s.flow.drawers[i]? = some d → Answers (.overflowDrawerMove core eng) s fun t =>
          t = { s with flow := { s.flow with drawers := s.flow.drawers.set i { d with overflow := none } } })
    ∧ (∀ n core ctx c due y, s.flow.returns[n]? = some ⟨core, ctx, c, due⟩ → due ≤ s.ck → s.held ctx = false → s.cctx? core ctx = some y → y.held c = true →
        let waits (r : Ready) : Prop := r ∈ s.flow.cwait ∧ r.core = core ∧ r.ctx = ctx ∧ r.got = none
        Answers (.colourReturn n) s fun t => t.flow.returns = s.flow.returns.eraseIdx n
          ∧ ((∀ r, ¬ waits r) → t.flow.cwait = s.flow.cwait ∧ ∃ z, t.cctx? core ctx = some z ∧ z.held c = false)
          ∧ ((∃ r, waits r) → (∃ z, t.cctx? core ctx = some z ∧ z.held c = true)
            ∧ ∃ r, waits r ∧ { r with got := some c } ∈ t.flow.cwait
              ∧ ∀ q, waits q → r.since < q.since ∨ (r.since = q.since ∧ engCode r.eng ≤ engCode q.eng)))
    ∧ (s.ck % 1024 = 0 → Answers .energyRefill s fun t => t.ck = (s.ck + 1) % 2^64 ∧
        ∀ core ctx x y, s.ctx? ctx = some x → s.cctx? core ctx = some y → y.part = none →
          t.cctx? core ctx = some { y with shortfall := y.shortfall - x.erate, ebudget := min x.ceiling (y.ebudget + (x.erate - y.shortfall)) })
    ∧ ∀ ctx die x, s.ctx? ctx = some x → (∃ c, c < 384 ∧ x.part.getLsbD c = true ∧ c / 64 = die) → x.dlwin ≤ x.stallCount die →
        (∀ d, d ≠ die → (∃ c, c < 384 ∧ x.part.getLsbD c = true ∧ c / 64 = d) → s.quiet ctx d = true ∧ 64 ≤ x.stallCount (6 + d)) →
        Answers (.dataflowStallDetect ctx die) s fun t => ∀ k,
          t.ctl k = if (s.ctl k).owner = some ctx then { s.ctl k with status := (s.ctl k).status ||| BitVec.twoPow 64 32,
                                                                       raised := noteRaised s.ck (BitVec.twoPow 64 32) (s.ctl k).raised, stallDie := die } else s.ctl k

namespace Sys2Proof.Claims

/-- The Chest entry e is issued, its operation is with memory, and f is its firing (R286, R287). -/
structure Outstanding (s : State) (e : Chest) (f : Firing) : Prop where
  inv : s.Inv
  entry : s.chest? e.core e.ctx e.order = some e
  st : e.st = 0
  firing : s.firing? e.fid = some f
  same : f.order = some e.order ∧ f.core = e.core ∧ f.ctx = e.ctx ∧ f.phase = .working
  ctx : ∃ x, s.ctx? e.ctx = some x ∧ x.phase = .resident ∧ x.watch.held = none
  here : ∀ b ∈ s.msys.bench, b.fid ≠ f.id ∧ ¬(b.core = e.core ∧ b.ctx = e.ctx ∧ b.order = e.order)

/-- The bank's table of recent tags has room (R288). -/
def TagRoom (s : State) (bank : Nat) : Prop := (s.msys.tags.filter fun q => q.bank == bank).length < 4096

/-- The bank has performed the entry's operation, once: its result is recorded, under its dedup tag if it is an I2 operation (R288). -/
def Performed (s t : State) (e : Chest) (bank : Nat) (w : Word) (ok p : Bool) : Prop :=
  t.chest? e.core e.ctx e.order = some { e with done := true, result := w, ok := ok, poison := p }
    ∧ (e.cls = 2 → t.msys.tags = s.msys.tags ++ if ∃ q ∈ s.msys.tags, q.dev = none ∧ q.bank = bank ∧ q.tag = e.dedup then []
        else [{ bank := bank, dev := none, tag := e.dedup, result := w, ok := ok, flags := 0 }])

/-- The entry is answered (R287): its firing has the results and nothing is left to do for it. -/
def AnswersWith (t : State) (e : Chest) (f : Firing) (outs : List Out) : Prop :=
  (t.chest? e.core e.ctx e.order).map (·.st) = some 1 ∧ ∃ g, t.firing? f.id = some g ∧ g.outs = outs ∧ g.job = .none

/-- The firing's operation fails: its Chest entry and the firing are gone and its section's seal is asked for (R116, R282). -/
def Fails (s t : State) (e : Chest) (f : Firing) : Prop :=
  t.firing? f.id = none ∧ t.chest? e.core e.ctx e.order = none ∧ (s.isSealed f.ctx f.sect = false → ∃ k, (f.ctx, f.sect, k) ∈ t.flow.seals)

/-- Bytes outside a run are as before. -/
def SameBytesBut (s t : State) (a n : Nat) : Prop := ∀ k, (k < a ∨ a + n ≤ k) → t.byteAt k = s.byteAt k

/-- The hub's command at place n, the first of its object (R208, R238). -/
structure AtHub (s : State) (n : Nat) (q : HubCmd) (r : ObjRec) : Prop where
  inv : s.Inv
  here : s.msys.hub[n]? = some q
  first : ∀ e ∈ s.msys.hub.take n, e.handle ≠ q.handle
  fresh : q.performed = false
  obj : s.obj? q.handle = some r

/-- The counter that a counter word names, of an array that is not being moved, rises by 1 (R236, R254). -/
def Posted (s t : State) (w : Word) : Prop :=
  let i := (w.extractLsb' 24 24).toNat
  ∀ r, w.extractLsb' 0 24 ≠ 0 → s.obj? (w.extractLsb' 0 24).toNat = some r → r.st ≠ 0 → r.kind = 3 → s.reloc? (w.extractLsb' 0 24).toNat r.gen = none → i < dim r.shape 1 * dim r.shape 2 →
    s.readNat (r.base + 8 * i) 8 + 1 < 2^64 → t.readNat (r.base + 8 * i) 8 = s.readNat (r.base + 8 * i) 8 + 1

/-- Where the pieces of cell k of an access lie, if it is in the shape and at this device (R129, R203). -/
def placeOf (s : State) (t : Access) (store : Bool) (k : Nat) : Option (List (Nat × Nat × Nat)) :=
  (t.cells[k]?.bind fun c => t.cell c.1 c.2).bind fun x => match s.site t.obj store x with
    | .at ps => some ps
    | _ => none

/-- Two pieces share a bit. -/
def Meets (p q : Nat × Nat × Nat) : Prop := 8 * p.1 + p.2.1 < 8 * q.1 + q.2.1 + q.2.2 ∧ 8 * q.1 + q.2.1 < 8 * p.1 + p.2.1 + p.2.2

/-- The values of the pieces of element k that a store leaves, before a later element of it writes over them: round_to(v / sc, format, mode), sc the
scale in lit1 if there is one, of the tile's element, transformed where the object has its Hadamard flag (R53, R132, R243), or of SST's operand
(R134); an element that has a plane-form object's own form goes there as it stands (R203). -/
def storedValue (s : State) (f : Firing) (t : Access) (k : Nat) : Option (List Nat) :=
  let sc := if t.lit1 = 0 then none else some (decodeFp64 t.lit1).1
  let put (v : Val) : List Nat := t.obj.encoded (storeScaled t.obj.fmt t.obj.sat (RM.ofCode t.mode) sc v).1
  match f.job with
  | .scalarStore _ v unsigned =>
    if k = 0 then some (put (if unsigned then Val.ofInt v.toNat else if fmtIsFloat t.obj.fmt then (decodeFp64 v).1 else Val.ofInt v.toInt)) else none
  | _ =>
    let d := Desc.ofWords t.desc t.desc1
    let tl := readTile d (s.tileBytes f.core d)
    let form := fmtPlane t.obj.fmt
    if t.obj.layout = 2 ∧ tl.kind = form.1 ∧ (tl.kind = 0 → tl.e16 = form.2.1 ∧ tl.p = form.2.2) ∧ t.obj.had = false ∧ t.lit1 = 0 then
      if tl.kind = 0 then tl.elems[k]?.map fun e => t.obj.planes { el := e } else tl.ints[k]?.map fun i => t.obj.planes { int := i }
    else ((if t.obj.had then (hadRows tl.cols tl.rows tl.vals).map (·.1) else tl.vals)[k]?).map put

/-- Elements lo to hi - 1 of a store are in memory: every piece that no other of them writes over holds its value (R132, R203), and of the
elements of one coordinate the last (R243). -/
def CellsStored (s u : State) (f : Firing) (t : Access) (lo hi : Nat) : Prop :=
  ∀ (k : Nat) (ps : List (Nat × Nat × Nat)) (v : List Nat), lo ≤ k → k < hi → placeOf s t true k = some ps → storedValue s f t k = some v →
    ∀ (j : Nat) (p : Nat × Nat × Nat) (w : Nat), ps[j]? = some p → v[j]? = some w →
      (∀ (k' : Nat) (qs : List (Nat × Nat × Nat)), k ≤ k' → k' < hi → placeOf s t true k' = some qs →
        ∀ (i : Nat) (q : Nat × Nat × Nat), qs[i]? = some q → Meets p q → k' = k ∧ i = j) →
      u.readPiece t.handle t.obj.gen p = w % 2^p.2.2

/-- No byte outside the pieces of a store's cells has changed. -/
def StoreFrame (s u : State) (t : Access) : Prop :=
  ∀ a, (∀ k ps, placeOf s t true k = some ps → ∀ p ∈ ps, a < p.1 ∨ p.1 + (p.2.1 + p.2.2 + 7) / 8 ≤ a) → u.byteAt a = s.byteAt a

/-- The element that a load gives cell k (R37, R130, R131): that of its pieces, or the pad outside the shape. -/
def loadedValue (s : State) (t : Access) (k : Nat) : Machine.Loaded :=
  match placeOf s t false k with
  | some ps => t.obj.ofPieces (ps.map (s.readPiece t.handle t.obj.gen))
  | none => { loadBits t.obj.fmt (storeVal t.obj.fmt t.obj.sat (RM.ofCode t.mode) (decodeFp64 t.lit1).1).1 with nv := false }

/-- Some element from lo on that a load reads has an uncorrectable ECC error (R131, R133). -/
def Damaged (s : State) (t : Access) (lo : Nat) : Prop :=
  ∃ k ps, lo ≤ k ∧ placeOf s t false k = some ps ∧ ∃ p ∈ ps, s.pieceEcc t.handle t.obj.gen p = true

/-- The payload that SLD sends of an element (R133): FP64 bits, rounded in the firing's mode, or the integer. -/
def scalarPayload (fmt mode : Nat) (x : Machine.Loaded) : Word :=
  if fmtIsFloat fmt then encodeFp64 (roundFloat 0 false (RM.ofCode mode) ⟨53, -1022, 1023, 2^53 - 1⟩ (x.val fmt)).1
  else BitVec.ofInt 64 (x.val fmt).toInt64.1

/-- An access is one of this device's memory: its object is resident and is not being moved, and no other device has answered part of it. -/
structure LocalAccess (s : State) (e : Chest) (t : Access) : Prop where
  resident : t.obj.st = 1
  still : s.reloc? t.handle t.obj.gen = none
  alone : e.got = []

/-- An integer element of whole bytes at one address (R203). -/
structure IntElem (s : State) (t : Access) (a n : Nat) : Prop where
  cell : ∃ x, t.cell 0 0 = some x ∧ s.site t.obj true x = .at [(a, 0, 8 * n)]
  fmt : fmtIsFloat t.obj.fmt = false ∧ fmtBits t.obj.fmt = 8 * n ∧ 1 ≤ n ∧ n ≤ 8
  plain : t.obj.layout ≠ 2
  one : t.cells = [(0, 0)]
  still : s.reloc? t.handle t.obj.gen = none
  sound : s.eccHit a n = false

end Sys2Proof.Claims

/-- R37, R127, R130 to R135, R189, R203, R242, R243, R245, R273, R287, R288: a response performs an operation that its bank has not performed before, or
brings the result of one that it has: a counter read gives the counter, ATAD of an integer adds modulo its width. A store leaves the rounded
value of each element in its place, of rows that meet the last's, changes no byte outside its cells' pieces, and is answered when all its
rows are, ROW counting them meanwhile; a load fills its tile with the elements read and the pad, or is poison where one has an ECC error; SLD
sends the element's FP64 bits or integer. The payload of its poison is the model's choice (log 64). A retire notice removes its tag.
Readings of the model: logs 6, 21, 24, 64. -/
def Obligations.ResponsesAnswerEntries : Prop :=
  (∀ (s : State) (e : Chest) (f : Firing), Outstanding s e f →
    (∀ h r, e.done = true → f.job = .barrierArrive h r → Answers (.memoryResponseArrival e.core e.ctx e.order) s fun t =>
      AnswersWith t e f (f.outs.map fun o => { o with val := .scalar e.result e.poison }) ∧ ∀ a, t.byteAt a = s.byteAt a)
    ∧ (∀ h r i, e.done = false → f.job = .counterRead h r i → s.reloc? h r.gen = none → s.eccHit (r.base + 8 * i) 8 = false →
        Answers (.memoryResponseArrival e.core e.ctx e.order) s fun t =>
          AnswersWith t e f (f.outs.map fun o => { o with val := .scalar (BitVec.ofNat 64 (s.readNat (r.base + 8 * i) 8)) false })
            ∧ ∀ a, t.byteAt a = s.byteAt a)
    ∧ (∀ t sc v w a n, e.done = false → f.job = .atomic t 0 sc v false w → IntElem s t a n → TagRoom s (bankKey a) →
        Answers (.memoryResponseArrival e.core e.ctx e.order) s fun u =>
          u.readNat a n = (s.readNat a n + v.toNat) % 2^(8 * n) ∧ SameBytesBut s u a n ∧ (u.chest? e.core e.ctx e.order).map (·.st) = some 1)
    ∧ (∀ t, e.done = false → f.job = .store t → f.sealed = false → LocalAccess s e t →
        s.issuedRows f < t.rows.length → e.cell < s.issuedRows f * t.cols → Answers (.memoryResponseArrival e.core e.ctx e.order) s fun u =>
          (u.chest? e.core e.ctx e.order).map (fun q => (q.st, q.row)) = some (0, s.issuedRows f)
            ∧ CellsStored s u f t e.cell (s.issuedRows f * t.cols) ∧ StoreFrame s u t)
    ∧ (∀ t, e.done = false → (f.job = .store t ∧ f.sealed = false ∧ t.rows.length ≤ s.issuedRows f ∧ e.poison = false ∨ ∃ v u, f.job = .scalarStore t v u) →
        LocalAccess s e t → Answers (.memoryResponseArrival e.core e.ctx e.order) s fun u => AnswersWith u e f f.outs
          ∧ CellsStored s u f t (match f.job with | .store _ => e.cell | _ => 0) t.cells.length ∧ StoreFrame s u t)
    ∧ (∀ t o d d1, e.done = false → f.job = .load t → f.sealed = false → LocalAccess s e t → t.rows.length ≤ s.issuedRows f → f.outs = [o] →
        o.val = .tile d d1 false →
        let k := Desc.ofWords d 0
        (k.rows, k.cols, k.kind, k.e16, k.p) = (t.rows.length, t.cols, fmtPlane t.obj.fmt) →
        (Damaged s t e.cell ∨ e.poison = true → Answers (.memoryResponseArrival e.core e.ctx e.order) s fun u =>
          AnswersWith u e f [{ o with val := .tile d d1 true }])
        ∧ (¬ Damaged s t e.cell → e.poison = false → Answers (.memoryResponseArrival e.core e.ctx e.order) s fun u => AnswersWith u e f [o]
            ∧ let before := readTile k (s.tileBytes f.core k)
              let after := readTile k (u.tileBytes f.core k)
              ∀ i, i < t.cells.length → (after.elems[i]?, after.ints[i]?) =
                if i < e.cell then (before.elems[i]?, before.ints[i]?)
                else if k.kind = 0 then (some (loadedValue s t i).el, none) else (none, some (loadedValue s t i).int)))
    ∧ ∀ t ps, e.done = false → f.job = .scalarLoad t → t.cells.length = 1 → LocalAccess s e t → placeOf s t false 0 = some ps →
        Answers (.memoryResponseArrival e.core e.ctx e.order) s fun u => (∀ a, u.byteAt a = s.byteAt a)
          ∧ (Damaged s t 0 → AnswersWith u e f (f.outs.map fun o => { o with val := .scalar 0 true }))
          ∧ (¬ Damaged s t 0 → AnswersWith u e f (f.outs.map fun o => { o with val := .scalar (scalarPayload t.obj.fmt t.mode (loadedValue s t 0)) false })))
  ∧ ∀ (s : State) (n bank tag : Nat), s.log = [] → s.msys.retires[n]? = some (bank, tag) → Answers (.retireNotice n) s fun t =>
      t.msys.retires = s.msys.retires.eraseIdx n ∧ ∀ q, q ∈ t.msys.tags ↔ q ∈ s.msys.tags ∧ ¬(q.dev = none ∧ q.bank = bank ∧ q.tag = tag)

/-- R170, R172, R190, R211, R248, R249, R254, R262, R265, R271, R272: the banks perform barrier arrivals and waits, counter adds and waits, pushes and
pops, and invocations: a push rounds the tile's elements into the slot at TAIL, row by row, with 0 behind them; a barrier opens when the last of its members arrives, and one whose group is not valid fails; a counter that would overflow fails the add, a full or an empty
ring waits.
Readings of the model: logs 6, 20, 24, 42, 86, 92, 95. -/
def Obligations.BanksPerformOperations : Prop :=
  ∀ (s : State) (e : Chest) (f : Firing), Outstanding s e f → e.done = false →
    (∀ h r, f.job = .barrierArrive h r → s.reloc? h r.gen = none → TagRoom s (bankKey r.base) →
      let a := r.base
      let gen := s.readNat (a + 8) 4
      let last := (s.readNat a 4 + 1) % 2^32 = s.readNat (a + 4) 4
      let among : Prop := ∃ x q, s.ctx? e.ctx = some x ∧ x.groups.find? (fun g => g.1 == s.readNat (a + 12) 1) = some q ∧ q.2.getLsbD e.core = true
      (among → Answers (.barrierArrivalPerform e.core e.ctx e.order) s fun t => Performed s t e (bankKey a) (BitVec.ofNat 64 gen) true false
        ∧ t.readNat a 4 = (if last then 0 else (s.readNat a 4 + 1) % 2^32) ∧ t.readNat (a + 4) 4 = s.readNat (a + 4) 4
        ∧ t.readNat (a + 8) 4 = (if last then (gen + 1) % 2^32 else gen) ∧ SameBytesBut s t a 12)
      ∧ (¬ among → Answers (.barrierArrivalPerform e.core e.ctx e.order) s fun t => Fails s t e f ∧ ∀ k, t.byteAt k = s.byteAt k))
    ∧ (∀ h r g, f.job = .barrierWait h r g → s.reloc? h r.gen = none →
        let gen := s.readNat (r.base + 8) 4
        let valid : Prop := ∃ x q, s.ctx? e.ctx = some x ∧ q ∈ x.groups ∧ q.1 = s.readNat (r.base + 12) 1
        Answers (.barrierWaitAnswer e.core e.ctx e.order) s fun t =>
          (¬ valid → Fails s t e f ∧ ∀ k, t.byteAt k = s.byteAt k) ∧ (valid → if gen = g then t = s else Performed s t e (bankKey r.base) (BitVec.ofNat 64 gen) true false ∧ ∀ k, t.byteAt k = s.byteAt k))
    ∧ (∀ h r i v, f.job = .counterAdd h r i v → s.reloc? h r.gen = none → TagRoom s (bankKey r.base) →
        let a := r.base + 8 * i
        Answers (.counterAddPerform e.core e.ctx e.order) s fun t =>
          if s.readNat a 8 + v < 2^64 then
            t.readNat a 8 = s.readNat a 8 + v ∧ SameBytesBut s t a 8 ∧ Performed s t e (bankKey r.base) (BitVec.ofNat 64 (s.readNat a 8)) true false
          else Fails s t e f ∧ ∀ k, t.byteAt k = s.byteAt k)
    ∧ (∀ h r is target, f.job = .counterWait h r is target → s.reloc? h r.gen = none → is ≠ [] →
        Answers (.counterWaitSatisfied e.core e.ctx e.order) s fun t =>
          if ∀ i ∈ is, target ≤ s.readNat (r.base + 8 * i) 8 then
            ∃ i ∈ is, (∀ j ∈ is, s.readNat (r.base + 8 * i) 8 ≤ s.readNat (r.base + 8 * j) 8)
              ∧ Performed s t e (bankKey r.base) (BitVec.ofNat 64 (s.readNat (r.base + 8 * i) 8)) true false
          else t = s)
    ∧ (∀ h r, s.reloc? h r.gen = none → TagRoom s (bankKey r.base) → 1 ≤ dim r.shape 2 →
        r.base + 64 + dim r.shape 2 * dim r.shape 1 + 8 * dim r.shape 2 ≤ 2^48 →
        (∀ q ∈ s.msys.chest, q.handle = e.handle → q.kind = e.kind → q.st = 0 → q.done = false → q = e) →
        let n := dim r.shape 2
        let size := dim r.shape 1
        let head := s.readNat r.base 8
        let tail := s.readNat (r.base + 8) 8
        let word (i : Nat) : Nat := r.base + 64 + n * size + 8 * i
        (∀ desc desc1 marker mode, f.job = .push h r desc desc1 marker mode → marker < 3 →
          let d := Desc.ofWords desc desc1
          Answers (.ringOpPerform e.core e.ctx e.order) s fun t =>
            if (tail + 2^64 - head) % 2^64 = n then t = s
            else t.readNat (r.base + 8) 8 = (tail + 1) % 2^64 ∧ t.readNat r.base 8 = head
              ∧ t.readNat (word (tail % n)) 8 = (if marker = 0 then d.cols * 2^11 + d.rows * 2^4 else marker)
              ∧ (marker ≠ 0 → t.readNat (r.base + 64 + tail % n * size) size = 0)
              ∧ (marker = 0 → d.rows * d.cols * fmtBits r.fmt ≤ 8 * size →
                  let z := fmtBits r.fmt
                  let data := t.readNat (r.base + 64 + tail % n * size) size
                  data < 2^(z * (d.rows * d.cols))
                    ∧ ∀ k v, k < d.rows * d.cols → (readTile d (s.tileBytes f.core d)).vals[k]? = some v →
                        data / 2^(z * k) % 2^z = (storeVal r.fmt r.sat (RM.ofCode mode) v).1)
              ∧ Performed s t e (bankKey r.base) (BitVec.ofNat 64 tail) true false)
        ∧ (f.job = .pop h r → head = tail → Answers (.ringOpPerform e.core e.ctx e.order) s fun t => t = s)
        ∧ (f.job = .pop h r → head ≠ tail → s.readNat (word (head % n)) 8 % 4 = 1 → Answers (.ringOpPerform e.core e.ctx e.order) s fun t =>
            t.readNat r.base 8 = (head + 1) % 2^64 ∧ t.readNat (r.base + 8) 8 = tail
              ∧ Performed s t e (bankKey r.base) (BitVec.ofNat 64 (s.readNat (word (head % n)) 8)) true false
              ∧ ∃ g, t.firing? f.id = some g ∧ g.psum = none ∧ g.outs = f.outs.map fun o => { o with val := .eos, col := f.outCol, tag := f.outTag })
        ∧ ∀ i al, f.job = .pop h r → head ≠ tail → f.psum = some i → s.flow.allocs.find? (fun a => a.core == f.core && a.idx == i) = some al →
            let w := s.readNat (word (head % n)) 8
            let data := r.base + 64 + head % n * size
            let z := fmtBits r.fmt
            let rows := w / 2^4 % 128
            let cols := w / 2^11 % 128
            let tl := loadedTile r.fmt rows cols ((List.range (rows * cols)).map fun k => loadBits r.fmt (s.readNat data size / 2^(z * k) % 2^z))
            512 * al.base < 2^22 → w % 4 = 0 → s.eccHit data ((rows * cols * z + 7) / 8) = false → Answers (.ringOpPerform e.core e.ctx e.order) s fun t =>
              t.readNat r.base 8 = (head + 1) % 2^64
                ∧ Performed s t { e with rows := max 1 rows } (bankKey r.base) (BitVec.ofNat 64 w) true false ∧ ∃ g d, t.firing? f.id = some g ∧ g.outs = f.outs.map (fun o => { o with val := .tile d 0 false, col := f.outCol, tag := f.outTag })
                  ∧ HeldAs t f.core (.newTile (tl.desc false) tl.bytes false) (.tile d 0 false))
    ∧ ∀ t sub v w x ps a stack, s.msys.chest.head? = some e → (∀ q ∈ s.msys.chest.filterMap s.invocation?, s.asksAway q = false) → f.job = .invoke t sub v w → t.obj.owner = s.devId → t.cells = [(0, 0)] → t.cell 0 0 = some x →
        s.site t.obj true x = .at ps → (ps.map (·.1)).head? = some a → bankOf a = some (.hbm stack) → TagRoom s stack → s.reloc? t.handle t.obj.gen = none →
        let base := a / 512 * 512
        let r := Config.nmSubgraph sub (s.read base 512) (a - base) v w
        (16 ≤ sub → s.eccHit base 512 = false → Answers (.nearMemoryInvocation stack) s fun u => Performed s u e stack r.2.1 true false
          ∧ ∀ k, k < 2^48 → u.byteAt k = if base ≤ k ∧ k < base + 512 then r.1.getD (k - base) 0 else s.byteAt k)
        ∧ ∀ n, sub = 0 → IntElem s t a n → Answers (.nearMemoryInvocation stack) s fun u =>
            u.readNat a n = (s.readNat a n + v.toNat) % 2^(8 * n) ∧ SameBytesBut s u a n

/-- R208, R209, R210, R238, R241, R274: the hub performs its commands in order, with the record each leaves; an ORRES that waited there writes its
entries and completes; SHOP and PUBL wait for room in the table of recent tags; a relocation copies unit after unit and then
flips the record to its new place and generation; the counter is posted once the old generation has drained.
Readings of the model: logs 18, 43, 66. -/
def Obligations.HubCommandsChangeRecords : Prop :=
  (∀ (s : State) (n : Nat) (q : HubCmd) (r : ObjRec), AtHub s n q r → q.counter = 0 →
    let gone (t : State) : Prop := t.msys.hub = s.msys.hub.eraseIdx n
    let pending (t : State) : Prop := t.msys.hub = s.msys.hub.set n { q with performed := true, oldGen := r.gen }
    let left (t : State) : Prop := if s.inflightOf q.handle r.gen = 0 then gone t else pending t
    (∀ new, q.op = .orset new → r.st ≠ 0 → Answers (.hubCommandPerform n) s fun t => gone t ∧
      t.obj? q.handle = some { r with perm := new.perm, ppend := new.ppend, rm := new.rm, sat := new.sat })
    ∧ (q.op = .orinv → Answers (.hubCommandPerform n) s fun t => left t ∧ t.obj? q.handle = some { ObjRec.reset with gen := (r.gen + 1) % 65536 })
    ∧ (∀ dst, q.op = .ormov dst → (s.msys.relocs.filter fun m => bankKey m.oldBase == bankKey r.base).length < 64 →
        Answers (.hubCommandPerform n) s fun t => pending t ∧ t.obj? q.handle = some { r with st := 3, shadow := dst }
          ∧ ∃ m, t.msys.relocs = s.msys.relocs ++ [m] ∧ m.handle = q.handle ∧ m.gen = r.gen ∧ m.oldBase = r.base ∧ m.newBase = dst ∧ m.next = 0
            ∧ m.flipped = false ∧ (1 ≤ m.unit → r.footprint ≤ m.units * m.unit))
    ∧ (∀ core first es x ask, q.op = .orres core first es ask → (s.ctl core).wait = .orres q.handle x ask → (s.ctl core).owner = some q.ctx → s.held q.ctx = false →
        Answers (.hubCommandPerform n) s fun t => (t.ctl core).wait = .none ∧ (t.ctl core).pc = ((s.ctl core).advance (s.ctl core)).pc
          ∧ ∀ k, k < 2^48 → t.byteAt k = if r.base + 8 * first ≤ k ∧ k < r.base + 8 * (first + es.length)
              then (es.getD ((k - r.base - 8 * first) / 8) 0).extractLsb' (8 * ((k - r.base - 8 * first) % 8)) 8 else s.byteAt k)
    ∧ (∀ fid f, (q.op = .shop ∨ q.op = .publ) → q.fid = some fid → s.firing? fid = some f → ¬ TagRoom s (bankKey r.base) →
        exec (.hubCommandPerform n) s = .next s)
    ∧ (q.op = .shop → TagRoom s (bankKey r.base) → Answers (.hubCommandPerform n) s fun t => gone t ∧ t.obj? q.handle = some { r with st := 4 })
    ∧ (q.op = .publ → TagRoom s (bankKey r.base) → Answers (.hubCommandPerform n) s fun t => left t
        ∧ t.obj? q.handle = some { r with base := r.shadow, shadow := r.base, gen := (r.gen + 1) % 65536, st := 1 })
    ∧ ∀ fid f o e, (q.op = .shop ∨ q.op = .publ) → q.fid = some fid → s.firing? fid = some f → f.order = some o → s.chest? f.core f.ctx o = some e → TagRoom s (bankKey r.base) →
        Answers (.hubCommandPerform n) s fun t => ∃ e', t.chest? f.core f.ctx o = some e' ∧ e'.done = true
          ∧ e'.result = BitVec.ofNat 64 (if q.op = .shop then r.gen else (r.gen + 1) % 65536))
  ∧ ∀ (s : State), s.Inv →
    (∀ h m r, s.msys.relocs.find? (fun m => m.handle == h && !m.flipped && decide (m.next < m.units)) = some m → s.obj? h = some r →
      let o := m.next * m.unit
      let n := min m.unit (m.bytes - o)
      Answers (.relocationUnitCopy h) s fun t => (∀ j, j < n → t.byteAt (m.newBase + o + j) = s.byteAt (m.oldBase + o + j))
        ∧ SameBytesBut s t (m.newBase + o) n ∧ { m with next := m.next + 1 } ∈ t.msys.relocs ∧ t.obj? h = some r)
    ∧ (∀ h m r, s.msys.relocs.find? (fun m => m.handle == h && !m.flipped && decide (m.units ≤ m.next)) = some m → s.obj? h = some r →
        Answers (.relocationFlip h) s fun t => t.obj? h = some { r with base := r.shadow, gen := (r.gen + 1) % 65536, st := 1 }
          ∧ { m with flipped := true } ∈ t.msys.relocs ∧ SameBytesBut s t (s.msys.table + 128 * h) 128)
    ∧ ∀ n q, s.msys.hub[n]? = some q → q.performed = true → s.inflightOf q.handle q.oldGen = 0 → q.fid = none →
        (∀ c i es k, q.op = .orres c i es k → s.anyOut q.readers = false) → (∀ dst, q.op = .ormov dst → ∃ m ∈ s.msys.relocs, m.handle = q.handle ∧ m.gen = q.oldGen ∧ m.flipped = true) →
        Answers (.generationDrainPost n) s fun t => t.msys.hub = s.msys.hub.eraseIdx n ∧ Posted s t q.counter
          ∧ ∀ m ∈ t.msys.relocs, ¬(m.handle = q.handle ∧ m.gen = q.oldGen ∧ m.flipped = true)

namespace Sys2Proof.Claims

/-- Engine e of a core has stopped for a context's halt (R284, R308): reason 5 for DHLD, else 0. -/
def HaltStop (s : State) (core ctx e : Nat) : Prop := ∃ y st, s.cctx? core ctx = some y ∧ st ∈ y.stops ∧ st.e = e ∧ (st.reason = 0 ∨ st.reason = 5)

/-- A stop that the debugger put: at a breakpoint, after a step or for DSTP (R308). -/
def DebugStop (e : Nat) (t : Stop) : Prop := t.e = e ∧ (t.reason = 1 ∨ t.reason = 3 ∨ t.reason = 4)

/-- Nothing but the context's own record differs, in which it is x'. -/
def OnlyCtx (s t : State) (ctx : Nat) (x' : Ctx) : Prop :=
  t.ctx? ctx = some x' ∧ { t with ctxs := s.ctxs } = s ∧ ∀ k, k ≠ ctx → t.ctx? k = s.ctx? k

/-- A Drawer whatever its place in overflow (R178). -/
def anyPlace (d : Drawer) : Drawer := { d with overflow := d.overflow.map fun _ => 0 }

/-- A matched Drawer whatever its place in overflow. -/
def readyAnyPlace (r : Ready) : Ready := { r with overflow := r.overflow.map fun _ => 0 }

/-- A copy of a context's schedule after the event. -/
def CopyNow (t : State) (ctx k : Nat) (p : Copy → Prop) : Prop := ∃ x c, t.ctx? ctx = some x ∧ x.copies[k]? = some c ∧ p c

end Sys2Proof.Claims

/-- R160, R283 to R285, R290 to R296, R304 to R306, R308, R317, R321: the halt line rises on a cause; each engine stops, V at a boundary of a row, with its stop record in the save
object; a halted context is serviced, refused, or saved core by core and restored, once what holds its granules has been pre-empted; its line falls and what was stopped goes on; refused tokens
leave again; the debugger continues and steps a control core. What the clauses say of a context that `dolz` holds, of its stop lines under
`break fault` and of the service of a fault is the model's reading of R193, R290 and R321 (log 65).
Readings of the model: logs 14, 17, 19, 23, 25, 38, 53, 65, 73, 74, 78, 90. -/
def Obligations.HaltsSavesAndRestores : Prop :=
  ∀ (s : State) (ctx : Nat) (x : Ctx), s.Inv → s.ctx? ctx = some x →
    (x.phase = .resident → x.causes ≠ [] → x.watch.held = none → Answers (.haltLineRise ctx) s fun t => OnlyCtx s t ctx { x with phase := .halting })
    ∧ (x.phase = .resident → s.serves .faults = true → Answers (.preEmptionRequest ctx) s fun t => ∃ c, c.kind = 35 ∧ OnlyCtx s t ctx { x with causes := x.causes ++ [c] })
    ∧ (∀ core e y, x.phase = .halting → s.cctx? core ctx = some y → e < 5 → ¬ HaltStop s core ctx e → s.flow.firings.any (s.mustEnd core ctx e) = false →
        (s.flow.firings.any (s.midRow core ctx e) = true → exec (.engineStop core ctx e) s = .next s)
        ∧ (s.flow.firings.any (s.midRow core ctx e) = false → Answers (.engineStop core ctx e) s fun t =>
        (∃ z st, t.cctx? core ctx = some z ∧ z.stops = y.stops ++ [st] ∧ st.e = e
          ∧ st.reason = (if ∃ c ∈ x.causes, c.kind = 0 then 5 else 0)
          ∧ ∀ a, s.saveBase? ctx core = some a → ∀ j, j < 64 → t.byteAt (a + 64 * e + j) = st.record.extractLsb' (8 * j) 8)
        ∧ (e = 1 ∨ e = 2 → ∀ f ∈ s.flow.firings, f.core = core → f.ctx = ctx → engCode f.eng = e → f.phase = .working →
            (∀ op set g r c p, f.job ≠ .mma op set g r c p) →
            { f with phase := .stopped, prog := s.progress f, busy := f.due - s.ck } ∈ t.flow.firings)
        ∧ (e = 3 → (s.ctl core).owner = some ctx → (s.ctl core).run = .running →
            t.ctl core = { (s.ctl core).abandon with run := .halted, sbuf := [] })))
    ∧ (x.phase = .halting → x.watch.held = none → (∀ y ∈ s.cores, y.ctx = ctx → ∀ e, e < 5 → HaltStop s y.core ctx e) → Answers (.contextHalted ctx) s fun t =>
        let fault : Bool := x.causes.any fun c => decide (32 ≤ c.kind)
        (x.dolz = false → t.ctx? ctx = some { x with phase := .halted, watch := { x.watch with due := x.watch.due || fault } }
          ∧ t.host.log = s.host.log ++ [.halted ctx])
        ∧ (x.dolz = true → x.watch.onFault = true → fault = true → (∀ c ∈ x.causes, c.kind ≠ 0) →
          (∃ z, t.ctx? ctx = some z ∧ z.phase = .halted ∧ z.watch.held = some s.ck ∧ z.watch.due = true)
          ∧ ∃ k e sl col tag ck, t.host.log = s.host.log ++ [.halted ctx,
              .stopLine ctx k e sl col tag (if x.causes.any fun c => c.kind == 35 then .preemption else .fault) ck]))
    ∧ (∀ e r, s.serves .faults = true → x.phase = .halted → x.watch.held = none → (∀ c ∈ x.causes, c.kind ≠ 35 ∧ c.kind ≠ 0) → x.pendSeals = [] → s.msys.chest.filter (fun q => q.ctx == ctx && q.st == 3) = [e] →
        s.chest? e.core e.ctx e.order = some e → e.eng ≠ 3 → e.handle ≠ 0 → e.done = false → e.counts = true → s.obj? e.handle = some r → r.st ≠ 0 → r.st ≠ 4 →
        s.isSealed ctx e.sect = false → (e.cls = 2 → ∀ q ∈ s.msys.tags, ¬(q.dev = none ∧ q.tag = e.dedup)) →
        (r.gen + 65536 - e.gen) % 65536 ≤ (r.gen + 65536 - r.igen) % 65536 → Answers (.faultServiceResume ctx) s fun t =>
          t.ctx? ctx = some { x with phase := .restoring, causes := [] } ∧ t.chest? e.core ctx e.order = some { e with st := 0, gen := r.gen, row := 0, cell := 0, poison := false, counted := true, got := [] })
    ∧ (∀ c o e f, s.serves .faults = true → x.phase = .halted → x.causes = [c] → c.kind = 32 → c.order = some o → s.chest? c.core ctx o = some e → e.eng ≠ 3 →
        s.firing? e.fid = some f → f.ctx = ctx → f.core = c.core → f.order = some o → s.isSealed ctx f.sect = false → (∀ q ∈ s.flow.seals, ¬(q.1 = ctx ∧ q.2.1 = f.sect)) →
        Answers (.faultRefusal ctx) s fun t => t.firing? e.fid = some { f with sealed := true, job := .none, freeCol := none }
          ∧ t.chest? c.core ctx o = some { e with st := 2, row := e.rows, counted := false } ∧ ∃ x', t.ctx? ctx = some x' ∧ x'.causes = [] ∧ x'.phase = .halted
          ∧ ∃ q ∈ x'.pendSeals, q.1 = f.sect)
    ∧ (∀ core y a, s.serves .faults = true → x.phase = .halted → (∃ c ∈ x.causes, c.kind = 35) → (∀ c ∈ x.causes, c.kind ≠ 0) → x.watch.held = none → s.cctx? core ctx = some y → y.part = none →
        (∀ q ∈ s.flow.net, q.tok.ctx ≠ ctx) → s.saveBase? ctx core = some a →
        a + 2621440 ≤ 2^48 → (s.ctl core).owner = some ctx → s.flow.drawers.length ≤ 4096 → s.msys.chest.length ≤ 65536 → s.msys.bench.length ≤ 65536 → Answers (.contextSave core ctx) s fun t =>
          (∃ z p, t.cctx? core ctx = some z ∧ z.part = some p ∧ p.ctl = some (s.ctl core) ∧ p.chest = (s.chestOf core ctx).map (fun e => { e with counted := false })
            ∧ p.drawers = s.flow.drawers.filter (fun d => d.core == core && d.ctx == ctx)
            ∧ p.ready = s.flow.ready.filter (fun d => d.core == core && d.ctx == ctx)
            ∧ p.ingress = s.flow.ingress.filter (fun d => d.tok.core == core && d.tok.ctx == ctx)
            ∧ p.allocs = s.flow.allocs.filter fun d => d.core == core && d.ctx == ctx)
          ∧ (∀ d ∈ t.flow.drawers, ¬(d.core = core ∧ d.ctx = ctx)) ∧ (∀ d ∈ t.flow.ingress, ¬(d.tok.core = core ∧ d.tok.ctx = ctx)) ∧ (∀ d ∈ t.flow.allocs, ¬(d.core = core ∧ d.ctx = ctx))
          ∧ (∀ d ∈ t.msys.chest, ¬(d.core = core ∧ d.ctx = ctx)) ∧ t.ctl core = Ctl.reset core
          ∧ ∀ j, j < sramSize → t.byteAt (a + 122880 + j) = s.byteAt (coreKey core j))
    ∧ (∀ core p a, s.serves .faults = true → (x.phase = .saved ∨ x.phase = .restoring) → x.watch.held = none → (s.cctx? core ctx).bind (·.part) = some p → s.placeFree core ctx p = true → p.heldM = false →
        (∃ z ∈ s.cores, z.ctx = ctx ∧ z.core ≠ core ∧ z.part.isSome = true) → s.saveBase? ctx core = some a → a + 2621440 ≤ 2^48 →
        Answers (.contextRestore core ctx) s fun t => t.ctx? ctx = some { x with
            phase := .restoring
            causes := if x.phase = .saved then [] else x.causes
            watch := { x.watch with away := x.watch.away + (x.watch.savedAt.map fun k => s.ck - k).getD 0, savedAt := none } }
          ∧ (∃ z, t.cctx? core ctx = some z ∧ z.part = none) ∧ t.msys.chest = s.msys.chest ++ p.chest
          ∧ (∃ ds rs cs, ds.map anyPlace = p.drawers.map anyPlace ∧ rs.map readyAnyPlace = p.ready.map readyAnyPlace
            ∧ cs.map readyAnyPlace = p.cwait.map readyAnyPlace
            ∧ t.flow = { s.flow with drawers := s.flow.drawers ++ ds, ready := s.flow.ready ++ rs, cwait := s.flow.cwait ++ cs,
                                     reqs := s.flow.reqs ++ p.reqs, ingress := s.flow.ingress ++ p.ingress, allocs := s.flow.allocs ++ p.allocs })
          ∧ ∀ c, p.ctl = some c → c.core = core → t.ctl core = c
            ∧ ((∀ d ∈ p.drawers, d.overflow = none) → (∀ r ∈ p.ready ++ p.cwait, r.overflow = none) →
                ∀ j, j < sramSize → t.byteAt (coreKey core j) = s.byteAt (a + 122880 + j)))
    ∧ (∀ core p k z a b, s.serves .faults = true → (x.phase = .saved ∨ x.phase = .restoring) → x.watch.held = none → (s.cctx? core ctx).bind (·.part) = some p →
        a ∈ p.allocs → b ∈ s.flow.allocs → b.core = core → b.ctx = k → k ≠ ctx → a.base < b.base + b.len → b.base < a.base + a.len → s.ctx? k = some z →
        z.phase = .resident → (∀ c ∈ z.causes, c.kind ≠ 35) → Answers (.contextRestore core ctx) s fun t => t.cores = s.cores
          ∧ ∃ c, c.kind = 35 ∧ t.ctx? k = some { z with causes := z.causes ++ [c] })
    ∧ (x.phase = .restoring → (∀ y ∈ s.cores, y.ctx = ctx → y.part = none) → x.watch.held = none →
        (x.dolz = false ∨ x.watch.due = false ∨ x.watch.onFault = false) → x.causes = [] → x.pendSeals = [] →
        (∀ b ∈ s.msys.bench, b.ctx ≠ ctx) → Answers (.haltLineFall ctx) s fun t =>
        t.ctx? ctx = some { x with phase := .resident, watch := { x.watch with due := false } }
        ∧ (∀ k, (s.ctl k).owner = some ctx → (s.ctl k).run = .halted → t.ctl k = { s.ctl k with run := .running })
        ∧ (∀ core y, s.cctx? core ctx = some y → ∃ z, t.cctx? core ctx = some z ∧ ∀ st, st ∈ z.stops ↔ st ∈ y.stops ∧ st.reason ≠ 0 ∧ st.reason ≠ 5)
        ∧ ∀ f ∈ s.flow.firings, f.ctx = ctx → f.phase = .stopped → (∀ g ∈ s.flow.firings, g.id = f.id → g = f) →
            (if f.needsEngine then f else { f with phase := .working, start := s.ck, due := s.ck + f.busy, busy := s.ck + f.busy }) ∈ t.flow.firings)
    ∧ (x.phase = .restoring → (∀ y ∈ s.cores, y.ctx = ctx → y.part = none) → x.watch.held = none → x.dolz = true → x.watch.onFault = true →
        x.watch.due = true → Answers (.haltLineFall ctx) s fun t =>
          (∃ z, t.ctx? ctx = some z ∧ z.phase = .restoring ∧ z.watch.held = some s.ck ∧ z.watch.due = false)
          ∧ ∃ k e sl col tag ck, t.host.log = s.host.log ++ [.stopLine ctx k e sl col tag .resume ck])
    ∧ (x.phase = .restoring → (∀ y ∈ s.cores, y.ctx = ctx → y.part = none) → x.watch.held = none → x.dolz = false → x.causes ≠ [] →
        Answers (.haltLineFall ctx) s fun t => ∃ z, t.ctx? ctx = some z ∧ z.phase = .halted ∧ z.causes = x.causes)
    ∧ (∀ n nt d, s.fabric.refused[n]? = some nt → nt.toDev = some d → s.ck % 4096 = 0 → s.held nt.tok.ctx = false →
        (∀ q ∈ s.fabric.refused.take n, ¬(q.srcCore = nt.srcCore ∧ q.toDev = nt.toDev ∧ q.tok.core = nt.tok.core)) →
        Answers (.refusedTokenResend n) s fun t => t.fabric.refused = s.fabric.refused.eraseIdx n
          ∧ ∃ p, t.fabric.packets = s.fabric.packets ++ [p] ∧ p.dstDev = d ∧ p.body = .token nt ∧ p.ctx = nt.tok.ctx)
    ∧ ∀ core, (∀ z ∈ s.ctxs, z.phase ≠ .halted ∧ z.watch.held = none) →
        (∀ r, (s.ctl core).run = .stopped r → r ≠ 6 →
          LeavesAt core (.debugContinue core 3) s { s.ctl core with run := .running, brkPassed := decide (r = 2) }
          ∧ LeavesAt core (.singleStep core 3) s { s.ctl core with run := .running, brkPassed := decide (r = 2), steps := some 1 })
        ∧ ∀ e y, e < 3 → s.cctx? core ctx = some y → y.part = none → Answers (.debugContinue core e) s fun t =>
            ∃ z, t.cctx? core ctx = some z ∧ ∀ st, st ∈ z.stops ↔ st ∈ y.stops ∧ ¬ DebugStop e st

/-- R161, R162, R252, R255, R256, R260 to R262, R267, R278, R297 to R300, R302: a seal counts, empties its section's slots and tells the control
cores; a section finishes when each of its cores is spent; nodes start in order and their ends release or abandon their successors; copies
start, move their rows and post; a launch makes a context, or its rejection's record, and ends with a record and its cores returned.
Readings of the model: logs 25, 36, 37, 46, 47, 48, 87, 88, 89, 96, 97. -/
def Obligations.LaunchesRunToTheirEnd : Prop :=
  ∀ (s : State), s.Inv →
    (∀ n ctx x, s.ctx? ctx = some x → x.phase = .resident → x.watch.held = none → ∀ sect kind q, s.flow.seals[n]? = some (ctx, sect, kind) → x.section? sect = some q →
      q.sealed = false → q.finished = false → Answers (.sectionSeal n) s fun t =>
        (∃ x' q', t.ctx? ctx = some x' ∧ x'.faults = x.faults + 1 ∧ x'.sealed = true ∧ x'.section? sect = some q' ∧ q'.sealed = true ∧ q'.active = false
          ∧ if x.sealed = false ∨ (x.fck = s.ck ∧ sect < x.fsect) then x'.fkind = kind ∧ x'.fsect = sect ∧ x'.fck = s.ck
            else x'.fkind = x.fkind ∧ x'.fsect = x.fsect ∧ x'.fck = x.fck)
        ∧ (∀ d ∈ t.flow.drawers, ∀ sl, d.ctx = ctx → s.slot? d.core ctx d.eng d.slot = some sl → sl.sect ≠ sect)
        ∧ (∀ d ∈ t.flow.ready, ∀ sl, d.ctx = ctx → s.slot? d.core ctx d.eng d.slot = some sl → sl.sect ≠ sect)
        ∧ ∀ k, (s.ctl k).owner = some ctx → (t.ctl k).status.getLsbD 33 = true
          ∧ ((s.ctl k).seals.length < 8 → (t.ctl k).seals = (s.ctl k).seals ++ [(sect, kind)]))
    ∧ (∀ ctx x sect q, s.ctx? ctx = some x → x.phase = .resident → x.watch.held = none → x.section? sect = some q → q.active = true → q.sealed = false → q.finished = false →
        (∀ c, c < 384 → q.cset.getLsbD c = true → ∃ y, s.cctx? c ctx = some y ∧ ∃ r ∈ y.sects, r.sect = sect ∧ r.spent = true) →
        (∀ f ∈ s.flow.firings, f.ctx = ctx → f.sect = sect → f.eng = .c ∨ f.phase = .sent) → Answers (.sectionFinish ctx sect) s fun t =>
          ∃ x' q', t.ctx? ctx = some x' ∧ x'.section? sect = some q' ∧ q'.finished = true ∧ q'.active = false)
    ∧ (∀ ctx x, s.serves .contexts = true → s.ctx? ctx = some x → x.csig = 0 →
        let ended (t : State) : Prop := t.ctx? ctx = none ∧ (∀ y ∈ t.cores, y.ctx ≠ ctx) ∧ ∀ k, (s.ctl k).owner = some ctx → t.ctl k = Ctl.reset k
        let flags : Nat := x.empty.toNat * 8 + x.aband.toNat * 16
        (x.phase = .lost → Answers (.contextLost ctx) s fun t => ended t ∧ t.byteAt x.crec = BitVec.ofNat 8 (1 + 2 + 4 + 32 + flags)
          ∧ t.byteAt (x.crec + 53) = 20 ∧ (x.faults + 1 < 2^64 → t.readNat (x.crec + 8) 8 = x.faults + 1))
        ∧ (x.phase = .resident → x.watch.held = none → (∀ (k : Nat) n, x.nodes[k]? = some n → n.st ≠ .waiting ∧ n.st ≠ .started ∧ x.nodeOutcome k n = none) →
            (∀ q ∈ s.flow.seals, q.1 ≠ ctx) → Answers (.launchComplete ctx) s fun t => ended t
              ∧ t.byteAt x.crec = BitVec.ofNat 8 (1 + (if x.faults = 0 then 0 else 2) + x.sealed.toNat * 4 + flags)
              ∧ (x.faults < 2^64 → t.readNat (x.crec + 8) 8 = x.faults) ∧ (x.orph < 2^64 → t.readNat (x.crec + 16) 8 = x.orph)))
    ∧ (∀ n id q, s.serves .contexts = true → s.launchAt n = some q → s.idFree id = true →
        let r := s.launchRec q.places
        (r.fieldsOk = false → r.crec % 64 = 0 → assigned r.crec 64 = true → r.csig = 0 → Answers (.contextCreate n id) s fun t =>
          t.host.launches.length + t.host.ctxLaunches.length + 1 = s.host.launches.length + s.host.ctxLaunches.length ∧ t.ctxs = s.ctxs
          ∧ t.byteAt r.crec = 3 ∧ t.byteAt (r.crec + 53) = 19)
        ∧ ∀ u gs sects copies es images saves, s.checkLaunch q r id = .ok u gs sects copies es images → s.saveObjects (maskCores r.cores) [] = some saves →
            s.placeLaunch r images = true → Answers (.contextCreate n id) s fun t =>
              (∃ x, t.ctx? id = some x ∧ x.phase = .resident ∧ x.part = r.cores ∧ x.tagfmt = r.creq.extractLsb' 8 24 ∧ x.tstart = s.ck ∧ x.lid = r.lid
                ∧ x.prio = min (r.creq.extractLsb' 6 2).toNat q.cap ∧ x.sects = sects ∧ x.copies = copies ∧ x.edges = es ∧ x.groups = gs)
              ∧ (∀ c, c < 384 → r.cores.getLsbD c = true → (∀ y ∈ s.cores, y.ctx ≠ id) → ∃ y, t.cctx? c id = some y ∧ y.ebudget = r.ebud.toNat ∧ y.pool = [])
              ∧ ∀ i ∈ images, (∀ j ∈ images, j.core = i.core → j = i) → ∃ c, t.ctl i.core = c ∧ c.owner = some id ∧ c.run = .running ∧ c.pc = i.pc
                  ∧ c.exec = i.exec ∧ c.reg 2 = 0x20000 ∧ c.reg 3 = i.cdata ∧ c.reg 4 = i.glist ∧ c.reg 5 = i.gcnt ∧ c.priv = false ∧ c.ie = true)
    ∧ (∀ ctx x node n, s.ctx? ctx = some x → x.phase = .resident → x.watch.held = none → x.nodes[node]? = some n → n.st = .waiting → n.preds = 0 →
        (∀ m ∈ x.nodes.take node, ¬(m.st = .waiting ∧ m.preds = 0)) →
        let started (t : State) : Prop := ∃ x' n', t.ctx? ctx = some x' ∧ x'.nodes[node]? = some n' ∧ n'.st = .started
        (∀ c, n.copy = true → x.copies[n.idx]? = some c → Answers (.nodeStart ctx node) s fun t => started t ∧ CopyNow t ctx n.idx fun d => d.eligible = true)
        ∧ ∀ q, n.copy = false → x.sects[n.idx]? = some q → q.sealed = false →
            (q.blocks = [] → Answers (.nodeStart ctx node) s started)
            ∧ ∀ core a, q.blocks = [(core, a)] → s.blockReadable a = true → s.blockReject core ctx (s.deviceBlock a) = none → (s.deviceBlock a).sw = false →
                q.toks.2 = 0 → Answers (.nodeStart ctx node) s fun t => started t ∧ ∀ j, j < (s.deviceBlock a).n →
                  ∃ sl, t.slot? core ctx (s.deviceBlock a).eng ((s.deviceBlock a).f + j) = some sl ∧ sl.sect = (s.deviceBlock a).sect
                    ∧ sl.word = BitVec.ofNat 32 (s.readNat (a + 16 + 4 * j) 4))
    ∧ (∀ ctx x node n q, s.ctx? ctx = some x → x.nodes[node]? = some n → n.copy = false → n.st = .started → x.sects[n.idx]? = some q →
        (q.finished = true → Answers (.nodeEnd ctx node) s fun t => ∃ x', t.ctx? ctx = some x' ∧ (x'.nodes[node]?).map (·.st) = some .finished
          ∧ ∀ (j : Nat) m, j ≠ node → x.nodes[j]? = some m →
              x'.nodes[j]? = some { m with preds := m.preds - (x.edges.filter fun e => e.1 == node && e.2 == j).length })
        ∧ (q.finished = false → q.sealed = true → Answers (.nodeEnd ctx node) s fun t => ∃ x', t.ctx? ctx = some x'
          ∧ (x'.nodes[node]?).map (·.st) = some .sealed
          ∧ ∀ (j : Nat) m, j ≠ node → x.nodes[j]? = some m → (node, j) ∈ x.edges → m.st = .waiting →
              (x'.nodes[j]?).map (·.st) = some .abandoned ∧ x'.aband = true))
    ∧ (∀ ctx x k c y, s.ctx? ctx = some x → x.phase = .resident → x.watch.held = none → x.copies[k]? = some c → s.cctx? c.core ctx = some y →
        (∀ ra rb, c.eligible = true → c.running = false → c.ended = false → c.field 0 16 < y.rstg → (∀ d ∈ x.copies.take k, d.core = c.core → d.due y = false) →
          s.copiesRunning c.core < 8 → (s.msys.chest.filter fun e => e.core == c.core).length + 2 ≤ 128 → y.ebudget ≠ 0 →
          s.translate ctx (c.field 64 24) 0 0 = .ok ra → s.translate ctx (c.field 256 24) 0 1 = .ok rb → c.fault (c.source ra) (c.target rb) = none →
          ra.owner = s.devId ∨ (freeBench (s.benchOf c.core)).isSome = true →
          Answers (.copyEntryRun ctx k) s fun t => CopyNow t ctx k (fun d => d.running = true ∧ d.src = some (c.source ra) ∧ d.dst = some (c.target rb))
            ∧ (∃ z, t.cctx? c.core ctx = some z ∧ z.ebudget = y.ebudget - c.rows ∧ z.shortfall = y.shortfall + (c.rows - y.ebudget))
            ∧ (ra.owner = s.devId → ∃ e1 e2, t.msys.chest = s.msys.chest ++ [e1, e2] ∧ e1.cls = 0 ∧ e1.handle = c.field 64 24 ∧ e2.cls = 1 ∧ e2.handle = c.field 256 24)
            ∧ (ra.owner ≠ s.devId → (c.source ra).allOut = false → ∃ b ∈ t.msys.bench, b.core = c.core ∧ b.ctx = ctx ∧ b.owner = ra.owner ∧ b.isRead = true))
        ∧ (∀ a b, c.running = true → c.ended = false → c.written = false → c.rowsDone < c.rows → s.rowMoved c.core = false → s.copyFaulted c.core ctx c = false → c.src = some a → c.dst = some b →
            a.obj.st = 1 → b.obj.st = 1 → a.obj.owner = s.devId → b.obj.owner = s.devId → s.ecc = [] →
            (s.msys.chest.filter fun e => e.core == c.core).length + 1 ≤ 128 → (∀ e, s.chest? c.core ctx c.srcOrder = some e → e.got = []) → Answers (.copyEntryRun ctx k) s fun t =>
              CopyNow t ctx k fun d => d.rowsDone = c.rowsDone + 1 ∧ d.written = decide (c.rows ≤ c.rowsDone + 1))
        ∧ (c.running = true → c.ended = false → c.written = true → c.posting = false →
            (c.field 448 24 = 0 → (∀ e, s.chest? c.core ctx c.dstOrder = some e → e.kind = 17 → e.st = 2) → Answers (.copyCounterPost ctx k) s fun t => CopyNow t ctx k fun d => d.ended = true)
            ∧ ∀ r, c.field 448 24 ≠ 0 → s.chest? c.core ctx c.dstOrder = none → (s.msys.chest.filter fun e => e.core == c.core).length + 1 ≤ 128 → s.translate ctx (c.field 448 24) 3 2 = .ok r →
                c.field 472 24 < dim r.shape 1 * dim r.shape 2 → Answers (.copyCounterPost ctx k) s fun t => CopyNow t ctx k (fun d => d.posting = true)
                  ∧ ∃ e, t.msys.chest = s.msys.chest ++ [e] ∧ e.core = c.core ∧ e.cls = 2 ∧ e.handle = c.field 448 24)
        ∧ ∀ e, c.running = true → c.ended = false → c.written = true → c.posting = true → s.chest? c.core ctx c.srcOrder = some e → e.done = true →
            Answers (.copyCounterPost ctx k) s fun t => CopyNow t ctx k (fun d => d.ended = true) ∧ t.chest? c.core ctx c.srcOrder = none)

namespace Sys2Proof.Claims

/-- A packet joins those of the hub (R327). -/
def PacketLeaves (s t : State) (dev ctx : Nat) (b : PacketBody) : Prop :=
  ∃ p, t.fabric.packets = s.fabric.packets ++ [p] ∧ p.srcDev = s.devId ∧ p.dstDev = dev ∧ p.ctx = ctx ∧ p.hops = 0 ∧ p.body = b

/-- A request of another device for a record of this one, whose page is present; it replays no ticket (R339, R340). -/
structure Asked (s : State) (q : RemoteReq) (r : ObjRec) : Prop where
  inv : s.Inv
  away : q.dev ≠ s.devId
  page : q.handle / 32 ∉ s.msys.absentPages
  first : q.replayOf = none
  range : q.handle ≠ 0 ∧ q.handle < s.msys.objCount
  obj : s.obj? q.handle = some r
  legal : r.owner = s.devId ∧ r.kind = 0 ∧ r.fmt = q.fmt ∧ r.perm.getLsbD 3 = true ∧ r.perm.getLsbD (reqNeed q) = true
  inside : (reqAccess q r).someOut = false
  noTicket : ∀ t ∈ s.msys.tickets, ¬(t.dev = q.dev ∧ t.core = q.core ∧ t.ctx = q.ctx ∧ t.handle = q.handle)

/-- A Bench entry of a running context with its Chest entry and firing (R343). -/
structure Benched (s : State) (b : Bench) (e : Chest) (f : Firing) : Prop where
  inv : s.Inv
  here : (s.benchOf b.core).find? (fun q => q.idx == b.idx) = some b
  live : ∃ x y, s.ctx? b.ctx = some x ∧ x.phase = .resident ∧ x.watch.held = none ∧ s.cctx? b.core b.ctx = some y ∧ y.part = none
  whole : b.part = none
  entry : s.chest? b.core b.ctx b.order = some e
  order : e.core = b.core ∧ e.ctx = b.ctx ∧ e.order = b.order ∧ e.st = 0
  firing : s.firing? b.fid = some f
  owner : f.core = b.core ∧ f.ctx = b.ctx ∧ f.sect = b.sect ∧ f.eng ≠ .c

/-- A Bench entry is freed and its section's seal is asked for (R344, R348). -/
def BenchFails (s t : State) (b : Bench) : Prop :=
  (∀ e ∈ t.msys.bench, ¬(e.core = b.core ∧ e.idx = b.idx)) ∧ (s.isSealed b.ctx b.sect = false → ∃ k, (b.ctx, b.sect, k) ∈ t.flow.seals)

/-- The entry is answered at the ticket (R344, R346): its firing may send these results, and keeps the job that the replay sends again. -/
def SendsAtTicket (t : State) (e : Chest) (f : Firing) (outs : List Out) : Prop :=
  (t.chest? e.core e.ctx e.order).map (·.st) = some 1 ∧ ∃ g, t.firing? f.id = some g ∧ g.outs = outs ∧ g.phase = .ready ∧ g.job = f.job

/-- Port p of the fabric was t and is t', and no other part of the machine has changed. -/
def PortBecomes (s u : State) (p : Nat) (t' : Port) : Prop :=
  u.port? p = some t' ∧ (∀ k, k ≠ p → u.port? k = s.port? k) ∧ { u with fabric := { u.fabric with ports := s.fabric.ports } } = s

/-- A port has sent an SPDM message in control flits of up to 55 bytes each (R333, R334; log 15). -/
def saysTo (t : Port) (bytes : List Byte) : Port :=
  { t with out := t.out ++ (pieces 55 bytes.length bytes).map fun c => ctlFlit (ctlBody 5 (leNat c)) }

/-- The same, but for the step's number. -/
def PortTurns (i : Instr) (s : State) (p : Nat) (t' : Port) : Prop := Answers i s fun u => PortBecomes s { u with nextId := s.nextId } p t'

end Sys2Proof.Claims

/-- R340, R341, R344 to R346, R348, R350, R353: the owner rejects, performs or tickets another device's request, with the notice of residency; it closes
an entry that is cancelled or refused. At the requester a ticket completes a store or sends an atomic's reference; REPLAY sends the request
again while the context runs and its access translates again, REFUSE and a rejection free the entry and seal. Management serves an absent block with the content it keeps.
Readings of the model: logs 21, 25, 26, 48, 49, 62, 76. -/
def Obligations.TicketsJoinTwoDevices : Prop :=
  (∀ (s : State) (q : RemoteReq), s.Inv → q.dev ≠ s.devId → q.handle / 32 ∉ s.msys.absentPages → q.replayOf = none →
    (∀ r, s.obj? q.handle = some r → r.st = 0 ∨ r.owner ≠ s.devId ∨ r.kind ≠ 0 ∨ r.perm.getLsbD 3 = false ∨ r.perm.getLsbD (reqNeed q) = false) →
    Answers (.remoteRequestAtOwner q) s fun t => PacketLeaves s t q.dev q.ctx (.answer q.core q.order .reject) ∧ ∀ k, t.byteAt k = s.byteAt k)
  ∧ (∀ (s : State) (q : RemoteReq) (r : ObjRec), Asked s q r →
      (∀ a n, r.st = 1 → q.rows = [dim q.x 2] → q.cols = 1 → IntElem s (reqAccess q r) a n →
        (q.op = .read → Answers (.remoteRequestAtOwner q) s fun t => PacketLeaves s t q.dev q.ctx (.answer q.core q.order (.data (s.read a n)))
          ∧ ∀ k, t.byteAt k = s.byteAt k)
        ∧ (q.op = .write → q.data.length = n → Answers (.remoteRequestAtOwner q) s fun t => PacketLeaves s t q.dev q.ctx (.answer q.core q.order .ack)
          ∧ t.readNat a n = leNat q.data ∧ SameBytesBut s t a n))
      ∧ ∀ b i, r.st = 2 → (s.missing (reqAccess q r) (reqNeed q != 0)).min? = some b → s.freeTicket r.homeHub = some i →
          Answers (.remoteRequestAtOwner q) s fun t => ∃ k, t.msys.tickets = s.msys.tickets ++ [k] ∧ k.dev = q.dev ∧ k.core = q.core ∧ k.ctx = q.ctx
            ∧ k.handle = q.handle ∧ k.block = b ∧ t.host.log = s.host.log ++ [.residency q.handle b]
            ∧ PacketLeaves s t q.dev q.ctx (.answer q.core q.order (.ticket k.id b r.gen)))
  ∧ (∀ (s : State), s.Inv →
      (∀ dev core ctx h b, Answers (.cancelAtOwner dev core ctx h b) s fun t => ∀ k, k ∈ t.msys.tickets ↔ k ∈ s.msys.tickets
        ∧ ¬(k.dev = dev ∧ k.core = core ∧ k.ctx = ctx ∧ k.handle = h ∧ k.block = b))
      ∧ ∀ id k, s.serves .faults = true → s.msys.tickets.find? (fun t => t.id == id) = some k → Answers (.ownerRefusesService id) s fun t =>
          PacketLeaves s t k.dev k.ctx (.answer k.core 0 (.refuse id)) ∧ ∀ e ∈ t.msys.tickets, e.id ≠ id)
  ∧ (∀ (s : State) (h b a : Nat) (r : ObjRec) (k : Backing) (rest : List Turn), s.Inv → s.sched = .serve h b a :: rest → s.boot.phase = .running →
      s.serves .faults = true → s.obj? h = some r → r.st = 2 → r.owner = s.devId → b < r.blocks → s.hubBusy h = false →
      entryRejected s.devId r (BitVec.ofNat 64 (2^62 + a)) = false → entryPresent (s.readWord (r.base + 8 * b)) = false →
      s.host.backing.find? (fun q => q.handle == h && q.block == b) = some k → a < 2^48 → s.freeRun a r.blockLen = true → k.bytes.length ≤ r.blockLen →
      ∃ t, step s = .next t ∧ t.readNat (r.base + 8 * b) 8 = 2^62 + a ∧ (∀ j v, k.bytes[j]? = some v → t.byteAt (a + j) = v)
        ∧ ∀ q ∈ s.msys.tickets, q.handle = h → q.block = b →
            ∃ p ∈ t.fabric.packets, p.dstDev = q.dev ∧ p.ctx = q.ctx ∧ p.body = .answer q.core 0 (.replay q.id))
  ∧ ∀ (s : State) (b : Bench) (e : Chest) (f : Firing), Benched s b e f →
      (∀ ticket block gen, b.st = 0 → Answers (.ticketReceipt b.core b.idx ticket block gen) s fun t =>
        { b with st := 1, ticket := ticket, block := block, ogen := gen, ticketed := true } ∈ t.msys.bench
        ∧ ((∃ a, f.job = .store a) → SendsAtTicket t e f f.outs)
        ∧ ((∃ a op sc v u w, f.job = .atomic a op sc v u w) → SendsAtTicket t e f (f.outs.map fun o => { o with val := .scalar b.ref false }))
        ∧ ((∃ a, f.job = .load a) → t.flow.firings = s.flow.firings))
      ∧ (b.st = 0 → Answers (.rejectAnswer b.core b.idx) s fun t => BenchFails s t b)
      ∧ (s.msys.bench.find? (fun q => q.ticketed && q.ticket == b.ticket && (q.st == 1 || q.st == 2 || q.st == 3)) = some b →
          Answers (.refuseNotice b.ticket) s (fun t => BenchFails s t b)
          ∧ ((b.st = 1 ∨ b.st = 2) → f.job.access?.isSome = true → (∀ q ∈ s.msys.bench, q.noticed b.core b.ctx b.owner b.ticket = true → q = b) →
              (e.handle = 0 ∨ (s.retranslate e.handle e.gen).isSome = true → Answers (.replayNotice b.ticket) s fun t => { b with st := 3 } ∈ t.msys.bench
                ∧ ∃ l p q, t.fabric.packets = s.fabric.packets ++ l ∧ p ∈ l ∧ p.srcCore = f.core ∧ p.body = .request q ∧ q.ctx = f.ctx
                  ∧ q.replayOf = some (b.ticket, b.block, b.ogen))
              ∧ (e.handle ≠ 0 → s.retranslate e.handle e.gen = none → e.eng ≠ 3 → Answers (.replayNotice b.ticket) s fun t => BenchFails s t b)))

/-- R214, R325 to R328, R330 to R333, R335, R336: a packet is delivered and acknowledged, refused, taken by the port its route entry names,
whose groups of seven data flits leave, or found undeliverable, which loses its context; received groups are acknowledged and their packets join
those of the hubs, damaged ones come again, those of a context that `dolz` holds wait, one whose tag fails puts the port into ERROR with its keys erased; links that fail for good fence a
die; key generations change at KEYSW and end after 1,024 flits.
Readings of the model: logs 15, 28, 29, 50, 67, 68. -/
def Obligations.FabricCarriesPackets : Prop :=
  ∀ (s : State), s.Inv →
    (∀ n p, s.fabric.packets[n]? = some p → s.heldPacket p = true → exec (.fabricPacketForward n) s = .next s)
    ∧ (∀ n p, s.fabric.packets[n]? = some p → s.heldPacket p = false →
      (∀ nt, s.flowFirst n p = true → p.dstDev = s.devId → p.body = .token nt → Answers (.fabricPacketForward n) s fun t =>
        if s.refuses p.srcDev nt = false then
          t.flow.net = s.flow.net ++ [{ nt with fromDev := some p.srcDev, toDev := none }]
          ∧ (p.srcDev ≠ s.devId → ∃ q, t.fabric.packets = s.fabric.packets.eraseIdx n ++ [q] ∧ q.dstDev = p.srcDev ∧ q.body = .acked 1)
        else t.flow.net = s.flow.net ∧ ∃ q, t.fabric.packets = s.fabric.packets.eraseIdx n ++ [q] ∧ q.dstDev = p.srcDev
          ∧ q.body = .refused { nt with fromDev := some s.devId })
      ∧ (s.flowFirst n p = true → p.dstDev ≠ s.devId →
          (s.route p.dstDev).getLsbD 31 = false ∨ 8 < p.hops + ((s.route p.dstDev).extractLsb' 10 4).toNat → Answers (.fabricPacketForward n) s fun t =>
            t.host.log = s.host.log ++ [.fabricError p.dstDev]
            ∧ (∀ x, p.srcDev = s.devId → (∀ c o k, p.body ≠ .answer c o (.undeliverable k)) → s.ctx? p.ctx = some x →
                t.fabric.packets = s.fabric.packets.eraseIdx n ∧ (t.ctx? p.ctx).map (·.phase) = some .lost)
            ∧ (p.srcDev ≠ s.devId → (∀ c o x, p.body ≠ .answer c o (.undeliverable x)) → ∃ q,
                t.fabric.packets = s.fabric.packets.eraseIdx n ++ [q] ∧ q.dstDev = p.srcDev ∧ q.body = .answer 0 0 (.undeliverable p.ctx)))
      ∧ ∀ k t, p.dstDev ≠ s.devId → (s.route p.dstDev).getLsbD 31 = true → p.hops + ((s.route p.dstDev).extractLsb' 10 4).toNat ≤ 8 →
          k = (if (p.srcCore + p.ctx) % 2 = 0 then (s.route p.dstDev).extractLsb' 0 5 else (s.route p.dstDev).extractLsb' 5 5).toNat →
          s.port? k = some t → t.st = .run → s.portHead k t = some n → t.forming.length < 7 →
          let bs := Config.packetBodies p
          Answers (.fabricPacketForward n) s fun u => u.fabric.packets = s.fabric.packets.eraseIdx n ∧ ∃ t', u.port? k = some t'
            ∧ t'.credit = spendCredit t.credit p.cls
            ∧ (t.forming.length + bs.length < 7 → t'.out = t.out ∧ ∃ l, t'.forming = t.forming ++ l ∧ l.map (·.body) = bs
                ∧ ∀ b ∈ l, b.hop = p.hops ∧ b.cls = p.cls ∧ b.psn = p.poison)
            ∧ (t.forming.length + bs.length = 7 → t.replay.length ≤ 504 → t.groups + 1 < 2^32 → ∃ l fs, t'.forming = []
                ∧ t'.replay = t.replay ++ fs ∧ t'.out = t.out ++ fs ∧ t'.txSeq = (t.txSeq + 8) % 2^16 ∧ t'.groups = t.groups + 1
                ∧ l.map (·.body) = t.forming.map (·.body) ++ bs
                ∧ fs = groupFlits (Config.linkKey t.keyId t.txGen true) t.txGen t.txSeq t.groups l
                ∧ groupShape fs = true ∧ (∀ f ∈ fs, flitOk f = true) ∧ flitSeq (fs.headD 0) = t.txSeq % 2^16 ∧ flitKgen (fs.headD 0) = t.txGen % 4))
    ∧ (∀ k t n p, s.portHead k t = some n → s.fabric.packets[n]? = some p → ∀ m q, s.fabric.packets[m]? = some q → s.waitsFor k q = true → s.cutOff q = false →
        s.heldPacket q = false → (∀ r ∈ s.fabric.packets.take m, r.leads q = true → r.cls = q.cls) → q.cls = p.cls → q.hops ≤ p.hops ∧ (q.hops = p.hops → q.promoted = true → p.promoted = true ∧ p.since ≤ q.since))
    ∧ (∀ ctx x, s.ctx? ctx = some x → Answers (.undeliverableNotice ctx) s fun t => OnlyCtx s t ctx { x with phase := .lost })
    ∧ (∀ dev k count e, s.fabric.unacked.find? (fun q => q.1 == dev) = some (dev, k) → k ≤ count → s.fabric.routePend.find? (fun q => q.1 == dev) = some (dev, e) →
        Answers (.fabricAck dev count) s fun t => t.route dev = e ∧ (∀ q ∈ t.fabric.unacked, q.1 ≠ dev) ∧ ∀ q ∈ t.fabric.routePend, q.1 ≠ dev)
    ∧ (∀ n p, s.fabric.packets[n]? = some p → p.promoted = false → p.dstDev ≠ s.devId → p.since + s.threshold (s.portFor p) ≤ s.ck →
        (∀ q ∈ s.fabric.packets.take n, p.sameFlow q = true → q.promoted = true) →
        Answers (.packetAgePromotion n) s fun t => t.fabric.packets = s.fabric.packets.set n { p with promoted := true })
    ∧ (∀ link v, 64 ≤ v → v ≤ 65535 → Answers (.promotionThresholdSet link v) s fun t => t.threshold link = v ∧ ∀ l, l ≠ link → t.threshold l = s.threshold l)
    ∧ (∀ p t, s.port? p = some t →
        (∀ fs, t.st = .run → fs ≠ [] → t.discardTo = none →
          ((∃ f ∈ fs, flitOk f = true ∧ flitType f = 3) → PortTurns (.flitGroupReceive p fs) s p { t with out := t.out ++ [ctlFlit (ctlBody 6 0)] })
          ∧ ((∀ f ∈ fs, ¬(flitOk f = true ∧ flitType f = 3)) → (∃ f ∈ fs, flitOk f = false) →
              PortTurns (.flitGroupReceive p fs) s p { t with out := t.out ++ [ctlFlit (ctlBody 2 t.rxSeq)], discardTo := some t.rxSeq })
          ∧ ∀ g, (∀ f ∈ fs, flitOk f = true) → flitSeq (fs.headD 0) = t.rxSeq → groupShape fs = true → t.rxGen = g → g % 4 = flitKgen (fs.headD 0) → t.rxOld = none →
              let r := openGroup (Config.linkKey t.keyId g false) (groupNonce (flitKgen (fs.headD 0)) t.rxSeq t.rxGroups) fs
              Answers (.flitGroupReceive p fs) s fun u => ∃ t', u.port? p = some t' ∧
                if leBytes 16 ((fs.getLastD 0).extractLsb' 0 128).toNat = r.1 then
                  t'.rxSeq = (t.rxSeq + fs.length) % 2^16 ∧ t'.rxGroups = t.rxGroups + 1 ∧ t'.out = t.out ++ [ctlFlit (ctlBody 1 (flitSeq (fs.getLastD 0)))]
                  ∧ ((∀ l, Config.packetOf l = none) → t'.parts = t.parts ++ r.2 ∧ u.fabric.packets = s.fabric.packets)
                  ∧ ∀ hop cls q, t.parts = [] → hop < 8 → cls < 4 → (∀ b ∈ r.2, b.hop = hop ∧ b.cls = cls ∧ b.psn = false) →
                      Config.packetOf (r.2.map (·.body)) = some (r.2.length, q) → t'.parts = []
                      ∧ u.fabric.packets = s.fabric.packets ++ [{ q with hops := hop + 1, cls := cls, poison := false, since := s.ck, promoted := false }]
                else t'.st = .error ∧ t'.keys = false ∧ t'.replay = [])
        ∧ (∀ seq i, t.st = .run → t.replay.findIdx? (fun f => flitSeq f == seq) = some i →
            (t.forming.length < 7 → PortTurns (.ack p seq) s p { t with
              replay := t.replay.drop (i + 1), carried := t.carried.filter fun q => (t.replay.drop (i + 1)).any fun f => flitSeq f == q.1 })
            ∧ (Answers (.ack p seq) s fun u => ∃ t' fs, u.port? p = some t' ∧ t'.replay = t.replay.drop (i + 1) ++ fs ∧ t'.out = t.out ++ fs)
            ∧ PortTurns (.nack p seq) s p { t with out := t.out ++ t.replay.drop i })
        ∧ (∀ seq, t.st = .run → (∀ f ∈ t.replay, flitSeq f ≠ seq) → PortTurns (.ack p seq) s p { t with out := t.out ++ [ctlFlit (ctlBody 6 0)] }
            ∧ PortTurns (.nack p seq) s p { t with out := t.out ++ [ctlFlit (ctlBody 6 0)] })
        ∧ PortTurns (.idle p) s p t
        ∧ (∀ gen, t.st = .run → t.pendingUpdate = true → gen = (t.rxGen + 1) % 4 → PortTurns (.keysw p gen) s p { t with
            rxOld := some t.rxGen, rxGen := t.rxGen + 1, rxNew := 0, rxOldGroups := t.rxGroups, rxGroups := 0, pendingUpdate := false })
        ∧ (1024 ≤ t.txNew → PortTurns (.keyGenerationErase p true) s p { t with txOld := none })
        ∧ (1024 ≤ t.rxNew → PortTurns (.keyGenerationErase p false) s p { t with rxOld := none })
        ∧ (t.st ≠ .error → t.failRow < 2 → t.retrains.length < 7 → Answers (.retrain p false) s fun u => (u.port? p).map (·.failRow) = some (t.failRow + 1))
        ∧ (t.st ≠ .error → t.retrains.length < 7 → Answers (.retrain p true) s fun u => ∃ t', u.port? p = some t' ∧ t'.failRow = 0 ∧ t'.out = t.out ++ t.replay)
        ∧ (t.st ≠ .error → 2 ≤ t.failRow → Answers (.retrain p false) s fun u => ∃ t', u.port? p = some t' ∧ t'.st = .error ∧ t'.keys = false))
    ∧ ∀ die x y k, s.fabric.ports.length = 18 → die < 6 → s.fabric.pkg.find? (fun q => q.die == die && q.hub == 0) = some k → k.fenced = false → k.failRow = 2 →
        s.ctx? x = some y → (∃ c ∈ s.cores, c.ctx = x ∧ c.core / 64 = die) → Answers (.retrain (18 + 2 * die) false) s fun t =>
          (t.ctx? x).map (·.phase) = some .lost ∧ ∃ q ∈ t.fabric.pkg, q.die = die ∧ q.hub = 0 ∧ q.fenced = true

/-- R334, R335, R336: on an unlocked port the messages of SPDM 1.2 or 1.3 lead in order from version to an established session with its keys;
KEY_UPDATE rotates them in RUN, END_SESSION ends it, PSK_EXCHANGE is refused; each message is answered in control flits, one out of order with a
refusal that changes nothing more. The peer's responses to this device's own requests lead to the next request and, after the last, to the
session; one that is not as it must be ends the bring-up. That END_SESSION on a port that is locked keeps its keys is the model's choice (log 50).
Readings of the model: logs 15, 50. -/
def Obligations.SessionsFollowSpdm : Prop :=
  ∀ (s : State) (p : Nat) (t : Port) (m : SpdmMsg), s.Inv → s.port? p = some t → t.st ≠ .error →
    let turns (i : Instr) (r : SpdmReply) (q : Port) : Prop := PortTurns i s p (saysTo q (Config.spdmBytes r m.bytes))
    let none_ (i : Instr) : Prop := turns i .refused t
    let unkeyed : Port := { t with keys := false, spdm := .none, txOld := none, rxOld := none, pendingUpdate := false, groups := 0, rxGroups := 0 }
    let algs : SpdmAlgs := { baseAsym := 0, extAsym := [(0x03, 0, 0x5A01)], hashSha256 := true, measSha256 := true, aeadAesGcm := true, dheP384 := true }
    let up : Port := { t with spdm := .established, keys := true, keyId := s.nextId, txGen := 0, rxGen := 0, txOld := none, rxOld := none,
                              groups := 0, rxGroups := 0, asking := none, failed := false }
    let takes (r : Option SpdmMsg) (q : Port) : Prop := ∀ rest, s.sched = .spdmResponse p r :: rest →
      ∃ u, step s = .next u ∧ PortBecomes s { u with nextId := s.nextId, sched := s.sched } p q
    let asks : List SpdmReply := [.getVersion, .getCapabilities, .negotiateAlgorithms algs, .getDigests, .getCertificate, .challenge, .getMeasurements,
      .keyExchange, .finish]
    let idle : Prop := t.txOld = none ∧ t.rxOld = none ∧ t.pendingUpdate = false
    ((m.minor ≠ 2 ∧ m.minor ≠ 3) →
      ∀ i ∈ [Instr.getVersion p m, .getCapabilities p m, .negotiateAlgorithms p m, .getDigests p m, .getCertificate p m, .challenge p m,
        .getMeasurements p m, .keyExchange p m, .finish p m, .keyUpdate p m, .endSession p m], none_ i)
    ∧ ((m.minor = 2 ∨ m.minor = 3) →
      (if t.st = .unlocked then turns (.getVersion p m) .version { unkeyed with spdm := .version } else none_ (.getVersion p m))
      ∧ (if t.spdm = .version then turns (.getCapabilities p m) .capabilities { t with spdm := .capabilities } else none_ (.getCapabilities p m))
      ∧ (if t.spdm = .capabilities ∧ m.baseAsym = 0 ∧ m.extAsym = [(0x03, 0, 0x5A01)] ∧ m.hashSha256 = true ∧ m.measSha256 = true
          ∧ m.aeadAesGcm = true ∧ m.dheP384 = true then turns (.negotiateAlgorithms p m) (.algorithms algs) { t with spdm := .algorithms }
         else none_ (.negotiateAlgorithms p m))
      ∧ (if t.spdm ∈ [SpdmPhase.algorithms, .authenticated, .exchanged, .established] then
          turns (.getDigests p m) .digests t ∧ turns (.getCertificate p m) .certificate t else none_ (.getDigests p m) ∧ none_ (.getCertificate p m))
      ∧ (if t.spdm = .algorithms then turns (.challenge p m) .challengeAuth { t with spdm := .authenticated } else none_ (.challenge p m))
      ∧ (if t.spdm ∈ [SpdmPhase.authenticated, .exchanged, .established] then turns (.getMeasurements p m) (.measurements s.boot.measures) t
         else none_ (.getMeasurements p m))
      ∧ (if t.spdm = .authenticated then turns (.keyExchange p m) .keyExchangeRsp { t with spdm := .exchanged } else none_ (.keyExchange p m))
      ∧ (if t.spdm = .exchanged ∧ Config.spdmAuthOk m.bytes = true then turns (.finish p m) .finishRsp
          { up with attested := m.dev % 2^18 }
         else none_ (.finish p m))
      ∧ (if t.st = .run ∧ t.spdm = .established ∧ idle then turns (.keyUpdate p m) .keyUpdateAck { t with
          out := t.out ++ [ctlFlit (ctlBody 4 ((t.txGen + 1) % 4))], pendingUpdate := true, txOld := some t.txGen, txGen := t.txGen + 1, txNew := 0,
          groups := 0 }
         else none_ (.keyUpdate p m))
      ∧ (if t.spdm = .established then turns (.endSession p m) .endSessionAck (if t.st = .unlocked then unkeyed else { t with spdm := .none })
         else none_ (.endSession p m)))
    ∧ none_ (.pskExchange p m)
    ∧ (∀ k, t.st = .unlocked → t.asking = some k → k < 9 →
        let ok : Prop := (m.minor = 2 ∨ m.minor = 3) ∧ (k = 2 → m.baseAsym = 0 ∧ m.extAsym = [(0x03, 0, 0x5A01)] ∧ m.hashSha256 = true
          ∧ m.measSha256 = true ∧ m.aeadAesGcm = true ∧ m.dheP384 = true) ∧ (4 ≤ k → Config.spdmAuthOk m.bytes = true)
        takes none { unkeyed with asking := none, failed := true }
        ∧ (¬ ok → takes (some m) { unkeyed with asking := none, failed := true })
        ∧ (ok → ∀ r, asks[k + 1]? = some r → takes (some m) { saysTo t (Config.spdmBytes r []) with
            attested := if k = 5 then m.dev % 2^18 else t.attested, asking := some (k + 1) })
        ∧ (ok → k = 8 → takes (some m) { up with attested := t.attested % 2^18 }))

namespace Sys2Proof.Claims

/-- The device has booted and r is its oldest management request, with a legal reserved word (R361). -/
structure Requested (s : State) (r : MgmtReq) (op : Nat) : Prop where
  inv : s.Inv
  booted : s.boot.phase = .running
  oldest : s.request = some r
  zero : r.zero = true
  code : r.op = op
  range : 1 ≤ op ∧ op ≤ 10
  served : ∀ v, opService op = some v → s.serves v = true

/-- The request has ended: its STATUS is written with DONE, a reason and a detail, and it has left the queue (R361). -/
def Replied (s t : State) (r : MgmtReq) (reason detail : Nat) : Prop :=
  t.readNat (r.addr + 8) 8 = 2^63 + reason * 4096 + detail % 4096 ∧ SameBytesBut s t (r.addr + 8) 8 ∧ t.host.requests = s.host.requests.tail

/-- The event answers the request with a reason and a detail, and p holds then. -/
def Serves (i : Instr) (s : State) (r : MgmtReq) (reason detail : Nat) (p : State → Prop) : Prop :=
  Answers i s fun t => Replied s t r reason detail ∧ p t

/-- Argument k of a request from bit lo on for n bits. -/
def argField (r : MgmtReq) (k lo n : Nat) : Nat := ((r.args.getD k 0).extractLsb' lo n).toNat

/-- A context has control core k on a core, and its private SRAM is at base: on the core itself, or saved from it (R291, R292). -/
def HasCtl (s : State) (core ctx : Nat) (k : Ctl) (base : Nat) : Prop :=
  ((∀ y, s.cctx? core ctx = some y → y.part = none) ∧ s.ctl core = k ∧ k.core = core ∧ k.owner = some ctx ∧ base = coreKey core 0)
    ∨ ∃ y p a, s.cctx? core ctx = some y ∧ y.part = some p ∧ p.ctl = some k ∧ k.core = core ∧ s.saveBase? ctx core = some a ∧ base = a + 122880

/-- A context has no control core on a core, nor one saved from it. -/
def HasNoCtl (s : State) (core ctx : Nat) : Prop :=
  (∀ y p, s.cctx? core ctx = some y → y.part = some p → p.ctl = none)
    ∧ ((∀ y, s.cctx? core ctx = some y → y.part = none) → (s.ctl core).owner ≠ some ctx)

/-- Every argument from k on is 0. -/
def RestZero (r : MgmtReq) (k : Nat) : Prop := ∀ j, k ≤ j → j < 6 → r.args.getD j 0 = 0

end Sys2Proof.Claims

/-- R354, R356 to R358: a doorbell raises DBELL of a created queue and asks for a slot while it is unmapped; an entry is accepted in order as a
launch, a request of queue 0 or a rejection, or stops its queue until the next doorbell; a control block reads as its fields; a write elsewhere in
BAR0 is discarded, one through BAR2 lands in device memory. Which queue is looked at first, and that a write through BAR2 to an unassigned
address stores nothing, is the model's choice (logs 79, 80).
Readings of the model: logs 31, 46, 79, 80. -/
def Obligations.QueuesFeedTheDevice : Prop :=
  ∀ (s : State), s.Inv →
    (∀ off v, ¬(0x40000 ≤ off ∧ off < 0x48000 ∧ off % 8 = 0) → exec (.bar0OtherWrite off v) s = .next s)
    ∧ (∀ q v, q < 4096 → exec (.bar0OtherWrite (0x40000 + 8 * q) v) s = exec (.doorbell q v) s)
    ∧ (∀ (q : Nat) u, s.host.queues.find? (fun w => w.q == q) = some u →
        let w := BitVec.ofNat 512 (leNat (s.bar0Read (64 * q) 64))
        w.extractLsb' 0 32 = 0 ∧ w.extractLsb' 32 32 = u.lacc ∧ w.extractLsb' 64 32 = u.lcmp ∧ w.extractLsb' 96 32 = u.dbell
          ∧ w.extractLsb' 128 48 = BitVec.ofNat 48 u.base ∧ w.extractLsb' 176 8 = 0 ∧ w.extractLsb' 184 5 = BitVec.ofNat 5 u.size
          ∧ w.getLsbD 189 = u.pend ∧ w.extractLsb' 190 2 = BitVec.ofNat 2 u.prio ∧ w.extractLsb' 192 8 = BitVec.ofNat 8 u.slot
          ∧ w.extractLsb' 200 32 = u.lrej ∧ w.extractLsb' 232 8 = BitVec.ofNat 8 u.rjwhy ∧ w.extractLsb' 240 272 = 0)
    ∧ (s.boot.phase = .running →
      (∀ (q : Nat) u (v : BitVec 64), q < 4096 → s.host.queues.find? (fun w => w.q == q) = some u → u.size ≠ 0 → Answers (.doorbell q v) s fun t =>
        ∃ w, t.host.queues.find? (fun x => x.q == q) = some w ∧ w.stopped = false ∧ w.pend = (u.pend || decide (64 ≤ u.slot)) ∧ w.slot = u.slot
          ∧ w.dbell = (if 1 ≤ (v.extractLsb' 0 32 - u.dbell).toNat ∧ (v.extractLsb' 0 32 - u.dbell).toNat < 2^31 then v.extractLsb' 0 32 else u.dbell))
      ∧ (∀ (q slot : Nat) u, s.host.queues.find? (fun w => w.q == q) = some u → u.size ≠ 0 →
          (slot < 64 → (∀ w ∈ s.host.queues, w.q ≠ q → w.slot ≠ slot) → Answers (.queueSlotMap q slot) s fun t =>
            t.host.queues.find? (fun x => x.q == q) = some { u with slot := slot, pend := false })
          ∧ Answers (.queueSlotMap q 64) s fun t => t.host.queues.find? (fun x => x.q == q) = some { u with slot := 64 })
      ∧ (∀ off bs, off + bs.length ≤ 2^36 → bs ≠ [] → assigned (s.host.bar2 + off) bs.length = true → Answers (.bar2Access off bs) s fun t =>
          (∀ j b, bs[j]? = some b → t.byteAt (s.host.bar2 + off + j) = b) ∧ SameBytesBut s t (s.host.bar2 + off) bs.length)
      ∧ ∀ off bs, bs = [] ∨ 2^36 < off + bs.length ∨ assigned (s.host.bar2 + off) bs.length = false → exec (.bar2Access off bs) s = .next s)
    ∧ ∀ (q : Nat) u, s.host.queues.find? (fun w => w.q == q) = some u → u.size ≠ 0 → u.slot < 64 →
        1 ≤ (u.dbell - u.lacc).toNat ∧ (u.dbell - u.lacc).toNat < 2^31 →
        (u.stopped = true → exec (.queueEntryAccept q) s = .next s)
        ∧ (∀ v ∈ s.host.queues, v.q ≠ u.q → v.due = true → s.queueLevel u < s.queueLevel v → exec (.queueEntryAccept q) s = .next s)
        ∧ (u.stopped = false → s.queueFirst u = true →
        let e := BitVec.ofNat 512 (s.readNat (u.base + 64 * ((u.lacc + 1).toNat % 2^u.size)) 64)
        let addr := (e.extractLsb' 64 48).toNat
        let kind := (e.extractLsb' 32 8).toNat
        let accepted (t : State) : Prop := ∃ w, t.host.queues.find? (fun x => x.q == q) = some w ∧ w.lacc = u.lacc + 1
        (e.extractLsb' 0 32 ≠ u.lacc + 1 → Answers (.queueEntryAccept q) s fun t => t.host.launches = s.host.launches ∧ t.host.requests = s.host.requests
          ∧ t.host.queues.find? (fun x => x.q == q) = some { u with stopped := true })
        ∧ (e.extractLsb' 0 32 = u.lacc + 1 →
        (e.extractLsb' 40 24 = 0 → e.extractLsb' 112 400 = 0 → addr % 64 = 0 → assigned addr 1 = true →
          (kind = 0 → Answers (.queueEntryAccept q) s fun t => accepted t ∧ ∃ l, t.host.launches = s.host.launches ++ [l] ∧ l.places = runPlaces addr ∧ l.cap = u.prio
            ∧ l.parent = none ∧ l.queue = some (q, (u.lacc + 1).toNat))
          ∧ (kind = 1 → q = 0 → Answers (.queueEntryAccept q) s fun t => accepted t
              ∧ t.host.requests = s.host.requests ++ [(addr, some (q, (u.lacc + 1).toNat))]))
        ∧ let why := if e.extractLsb' 40 24 ≠ 0 ∨ e.extractLsb' 112 400 ≠ 0 then 1 else if 2 ≤ kind ∨ (kind = 1 ∧ q ≠ 0) then 2
              else if addr % 64 ≠ 0 ∨ assigned addr 1 = false then 3 else 0
          (why ≠ 0 → Answers (.queueEntryAccept q) s fun t => t.host.launches = s.host.launches ∧ t.host.requests = s.host.requests
            ∧ ∃ w, t.host.queues.find? (fun x => x.q == q) = some w ∧ w.lacc = u.lacc + 1 ∧ w.lrej = u.lacc + 1 ∧ w.rjwhy = why
              ∧ (u.completed = [] → u.lcmp = u.lacc → w.lcmp = u.lacc + 1))))

/-- R60, R159, R213, R317, R326, R335, R351, R354, R356, R360 to R362: management carries out its oldest request and writes STATUS last; an unknown
operation is refused with reason 5, and so is one of a service that is fenced (log 80). Boot starts a verified image, slot A before slot B, or
offers recovery; the loader writes its data. The codes of a port's state in a refusal, ERROR where the attested id is another, what a detach lets
go, how a bring-up goes on, the extension of the measurement registers and the counter that a load installs are the model's choices
(logs 15, 30, 50, 65, 66, 68, 81).
Readings of the model: logs 15, 27, 30, 32, 50, 65, 66, 68, 80, 81, 98. -/
def Obligations.ManagementServesRequests : Prop :=
  (∀ (s : State) (r : MgmtReq), s.Inv → s.boot.phase = .running → s.request = some r →
    (r.op = 0 ∨ 10 < r.op ∨ r.zero = false ∨ ∃ v, opService r.op = some v ∧ s.serves v = false) →
    ∀ i ∈ [Instr.admitStream, .withdrawStream, .makePageExecutable, .removeExecute, .attachDolz, .detachDolz, .writeRouteEntries, .portBringUp, .portStart,
      .portStop, .moveBar2Window, .createUserQueue, .removeUserQueue], Serves i s r 5 0 fun _ => True)
  ∧ (∀ (s : State) (r : MgmtReq) (op : Nat), Requested s r op →
      let a (k lo n : Nat) : Nat := argField r k lo n
      let core := a 0 8 9
      (op = 1 → r.streamBad true = none → (r.args.getD 0 0).getLsbD 25 = false → (∃ y, s.cctx? core (a 0 0 8) = some y) →
        (∀ t ∈ s.host.streams, t.core = core → t.id = a 0 17 4 →
          t.ctx = a 0 0 8 ∧ t.byLid = none ∧ streamTarget t.target ≠ streamTarget (r.args.getD 1 0)) →
        let links := streamLinks core (r.args.getD 1 0)
        let has (t : Stream) (l e : Nat) : Bool := t.links.contains l && t.entries.contains e
        let mine (t : Stream) : Bool := t.core == core && t.id == a 0 17 4
        let may := (List.range 16).filter fun e => links.all fun l => !(s.host.streams.any fun t => has t l e && !mine t)
        let own (e : Nat) : Bool := links.any fun l => s.host.streams.any fun t => has t l e && mine t
        let free := may.filter own ++ may.filter fun e => !own e
        if a 0 21 4 ≤ free.length then Serves .admitStream s r 0 0 fun t => t.host.streams = s.host.streams ++ [{
          ctx := a 0 0 8, core := core, id := a 0 17 4, target := r.args.getD 1 0, links := links, entries := free.take (a 0 21 4), byLid := none }]
        else Serves .admitStream s r 3 0 fun t => t.host.streams = s.host.streams)
      ∧ (op = 2 → r.streamBad false = none →
        let named (q : Stream) : Prop := q.core = core ∧ q.id = a 0 17 4 ∧ streamTarget q.target = streamTarget (r.args.getD 1 0)
        ((r.args.getD 0 0).getLsbD 25 = false → (∃ y, s.cctx? core (a 0 0 8) = some y) → Serves .withdrawStream s r 0 0 fun t =>
          ∀ q, q ∈ t.host.streams ↔ q ∈ s.host.streams ∧ ¬(named q ∧ q.byLid = none ∧ q.ctx = a 0 0 8))
        ∧ ((r.args.getD 0 0).getLsbD 25 = true → Serves .withdrawStream s r 0 0 fun t =>
          ∀ q, q ∈ t.host.streams ↔ q ∈ s.host.streams ∧ ¬(named q ∧ q.byLid.isSome = true)))
      ∧ (op = 3 ∨ op = 4 → a 0 22 42 = 0 → core < 384 → RestZero r 1 →
          (HasNoCtl s core (a 0 0 8) →
            Serves (if op = 3 then .makePageExecutable else .removeExecute) s r 1 0 fun t => t.ctls = s.ctls ∧ t.cores = s.cores)
          ∧ ∀ c base, HasCtl s core (a 0 0 8) c base →
            let word (k : Nat) : Option Instr := decodeControl (BitVec.ofNat 32 (s.readNat (base + 4096 * a 0 17 5 + 4 * k) 4))
            (op = 4 → Serves .removeExecute s r 0 0 fun t => HasCtl t core (a 0 0 8) { c with exec := c.exec &&& ~~~(BitVec.twoPow 32 (a 0 17 5)) } base)
            ∧ (op = 3 → c.exec.getLsbD (a 0 17 5) = false →
              ((∀ k, k < 1024 → (word k).isSome = true) →
                Serves .makePageExecutable s r 0 0 fun t => HasCtl t core (a 0 0 8) { c with exec := c.exec ||| BitVec.twoPow 32 (a 0 17 5) } base)
              ∧ ∀ k, k < 1024 → word k = none → (∀ j, j < k → (word j).isSome = true) →
                  Serves .makePageExecutable s r 4 (4 * k) fun t => t.ctls = s.ctls ∧ t.cores = s.cores))
      ∧ (∀ x, op = 5 ∨ op = 6 → a 0 8 56 = 0 → RestZero r 1 → s.ctx? (a 0 0 8) = some x →
          (op = 5 → Serves .attachDolz s r 0 0 fun t => t.ctx? (a 0 0 8) = some { x with dolz := true })
          ∧ (op = 6 → Serves .detachDolz s r 0 0 fun t => (∃ z, t.ctx? (a 0 0 8) = some z ∧ z.dolz = false ∧ z.watch.held = none)
            ∧ (x.watch.held = none → t.ctx? (a 0 0 8) = some { x with dolz := false, watch := { x.watch with onFault := false } })))
      ∧ (∀ e, op = 7 → a 0 31 33 = 0 → a 0 18 13 = 1 → a 0 0 18 + 1 ≤ 2^18 → (r.args.getD 1 0).toNat % 8 = 0 → assigned (r.args.getD 1 0).toNat 4 = true →
          RestZero r 2 → e = BitVec.ofNat 32 (s.readNat (r.args.getD 1 0).toNat 4) →
          (routeOk e = true → (∀ q ∈ s.fabric.unacked, q.1 ≠ a 0 0 18) → Serves .writeRouteEntries s r 0 0 fun t => t.route (a 0 0 18) = e &&& 0x80003FFF)
          ∧ (routeOk e = false → Serves .writeRouteEntries s r 6 0 fun t => t.fabric.routes = s.fabric.routes))
      ∧ (∀ t, op = 8 → a 0 8 56 = 0 → a 0 0 5 < 18 → a 1 18 46 = 0 → RestZero r 2 → s.port? (a 0 0 5) = some t →
          let now (i : Instr) (k d : Nat) (t' : Port) : Prop := Serves i s r k d fun u => u.port? (a 0 0 5) = some t'
          let failed (i : Instr) (k d : Nat) : Prop := Serves i s r k d fun u => ∃ t', u.port? (a 0 0 5) = some t' ∧ t'.st = .error ∧ t'.keys = false
          (a 0 5 3 = 0 → (t.st = .unlocked → t.spdm = .established → t.keys = true →
              t.failed = false → now .portBringUp 0 0 { t with st := .locked, peer := a 1 0 18, enable := true })
            ∧ (t.st = .unlocked → ¬(t.spdm = .established ∧ t.keys = true) →
                (t.failed = true → now .portBringUp 7 0 { t with failed := false })
                ∧ (t.failed = false → t.asking = none → Answers .portBringUp s fun u => PortBecomes s u (a 0 0 5)
                    { saysTo t (Config.spdmBytes .getVersion []) with asking := some 0 })
                ∧ (t.failed = false → t.asking ≠ none → exec .portBringUp s = .next s))
            ∧ (t.st = .locked ∨ t.st = .run → failed .portBringUp 8 t.st.code) ∧ (t.st = .error → now .portBringUp 8 3 t))
          ∧ (a 0 5 3 = 1 → t.st ≠ .locked ∨ t.peerLocked = false → now .portStart 8 t.st.code t)
          ∧ (a 0 5 3 = 1 → t.st = .locked → t.peerLocked = true → t.attested = t.peer → now .portStart 0 0 { t with st := .run })
          ∧ (a 0 5 3 = 1 → t.st = .locked → t.peerLocked = true → t.attested ≠ t.peer → failed .portStart 0 0)
          ∧ (a 0 5 3 = 2 → t.st = .unlocked → now .portStop 8 0 t)
          ∧ (a 0 5 3 = 2 → t.st ≠ .unlocked → (t.st = .run → t.replay = [] ∧ t.forming = [] ∧ t.discardTo = none) → Serves .portStop s r 0 0 fun u => ∃ t', u.port? (a 0 0 5) = some t'
              ∧ t'.st = .unlocked ∧ t'.keys = false ∧ t'.enable = false ∧ t'.failRow = 0))
      ∧ (op = 9 → RestZero r 1 → Serves .moveBar2Window s r (if (r.args.getD 0 0).toNat % 2^36 = 0 ∧ (r.args.getD 0 0).toNat < 2^48 then 0 else 5) 0 fun t =>
          t.host.bar2 = if (r.args.getD 0 0).toNat % 2^36 = 0 ∧ (r.args.getD 0 0).toNat < 2^48 then (r.args.getD 0 0).toNat else s.host.bar2)
      ∧ (op = 10 → a 0 19 45 = 0 → a 0 0 12 ≠ 0 → r.entry = none →
          let base := (r.args.getD 1 0).toNat
          (4 ≤ a 0 12 5 → a 0 12 5 ≤ 16 → base % 64 = 0 → assigned base (64 * 2^a 0 12 5) = true → RestZero r 2 → (∀ u ∈ s.host.queues, u.q ≠ a 0 0 12) →
            Serves .createUserQueue s r 0 0 fun t => ∃ u, t.host.queues.find? (fun w => w.q == a 0 0 12) = some u ∧ u.size = a 0 12 5 ∧ u.prio = a 0 17 2
              ∧ u.base = base ∧ u.slot = 64 ∧ u.dbell = 0 ∧ u.lacc = 0 ∧ u.lcmp = 0)
          ∧ ∀ u, a 0 12 5 = 0 → RestZero r 1 → s.host.queues.find? (fun w => w.q == a 0 0 12) = some u → u.size ≠ 0 →
              if u.lacc = u.lcmp then Serves .removeUserQueue s r 0 0 fun t => ∃ w, t.host.queues.find? (fun w => w.q == a 0 0 12) = some w ∧ w.size = 0
              else Serves .removeUserQueue s r 8 u.slot fun t => t.host.queues = s.host.queues))
  ∧ ∀ (s : State), s.Inv →
      (∀ ctx x agewin dlwin, s.ctx? ctx = some x → 64 ≤ agewin → agewin ≤ 2^24 → 2^12 ≤ dlwin → dlwin ≤ 2^40 →
        Answers (.managementSetsWindows ctx agewin dlwin) s fun t => OnlyCtx s t ctx { x with agewin := agewin, dlwin := dlwin })
      ∧ (s.boot.phase ≠ .running →
          let good (k : Nat) : Bool := (s.boot.slots.find? (fun q => q.1 == k)).any fun q => Config.imageSigOk q.2.bytes && decide (s.boot.rollback ≤ q.2.version)
          Answers .deviceBoot s fun t =>
            if good 0 = true ∨ good 1 = true then
              t.boot.phase = .running ∧ t.boot.started = false
                ∧ ∃ k q, s.boot.slots.find? (fun q => q.1 == if good 0 = true then 0 else 1) = some (k, q) ∧ t.boot.version = q.version
                  ∧ ∀ m0 m1 m2, s.boot.measures = [m0, m1, m2] → ∃ d, t.boot.measures =
                      [extended m0 (Config.sha256 Config.bootRom), extended m1 (Config.sha256 q.bytes), extended m2 d]
            else t.boot = { s.boot with phase := .recovery })
      ∧ (∀ k i, s.boot.phase = .recovery → k < 2 → Answers (.recoveryImageAccept k i) s fun t => t.boot.slots.find? (fun q => q.1 == k) = some (k, i))
      ∧ (s.boot.phase = .running → (Answers .rollbackAdvance s fun t => t.boot.rollback = max s.boot.rollback s.boot.version ∧ t.boot.started = true)
          ∧ (∀ a bs, assigned a bs.length = true → Answers (.imageLoad { writes := [(a, bs)], objs := [], launches := [], backing := [] }) s fun t =>
              (∀ j b, bs[j]? = some b → t.byteAt (a + j) = b) ∧ SameBytesBut s t a bs.length)
          ∧ ∀ l u, GraphLaunch.placed l = true → s.installObjs 255 [] [(BitVec.ofNat 64 l.handle, signalRecord s.devId l.base)] = some u →
              let lid : Nat := (s.host.loaded + 1) % 2^32 + 2^32
              (s.stateNow l.handle ≠ 0 → exec (.imageLoad { writes := [], objs := [], launches := [l], backing := [] }) s = .next s)
              ∧ (s.stateNow l.handle = 0 → Answers (.imageLoad { writes := [], objs := [], launches := [l], backing := [] }) s fun t => t.host.loaded = s.host.loaded + 1 ∧ t.msys.objs = u.msys.objs
                ∧ t.readNat (l.addr + 8) 8 = lid ∧ t.readNat (l.addr + 48) 8 = l.crec % 2^64 ∧ t.readNat (l.addr + 56) 8 = l.handle % 2^64
                ∧ t.host.log = u.host.log ++ [.loaded (BitVec.ofNat 64 lid) l.crec (BitVec.ofNat 64 l.handle)]))

namespace Sys2Proof.Claims

/-! ### The whole machine -/

/-- The last two bits of a word are 0. -/
def Aligned4 (w : Word) : Prop := w.toNat % 4 = 0

/-- Every instruction address of a control core is that of a word (R61, R89, R104). -/
structure CtlAligned (c : Ctl) : Prop where
  pc : Aligned4 c.pc
  epc : Aligned4 c.epc
  tvec : Aligned4 c.tvec
  lstart : Aligned4 c.lstart
  lend : Aligned4 c.lend

/-- Every control core's addresses are aligned, those of saved contexts too. -/
def PcAligned (s : State) : Prop :=
  (∀ c ∈ s.ctls, CtlAligned c) ∧ ∀ y ∈ s.cores, ∀ p c, y.part = some p → p.ctl = some c → CtlAligned c

/-- Control core k may run its next instruction: it runs for a context that is resident or halting and that `dolz` does not hold, waits for nothing, is not at the end of
a single-step or at a comparator that has not fired, and no asynchronous cause can be taken (R93, R95, R193, R305, R306). -/
structure MayRun (s : State) (k : Nat) : Prop where
  running : (s.ctl k).run = .running
  owner : ∃ x r, (s.ctl k).owner = some x ∧ s.ctx? x = some r ∧ r.watch.held = none ∧ (r.phase = .resident ∨ r.phase = .halting)
  wait : (s.ctl k).wait = .none
  steps : (s.ctl k).steps ≠ some 0
  async : (s.ctl k).status.getLsbD 2 = false ∨ ∀ j, 32 ≤ j → j ≤ 34 → (s.ctl k).status.getLsbD j = false
  brk : (s.ctl k).brkPassed = true ∨ ∀ q ∈ (s.ctl k).cmps, q.1 = true → (s.ctl k).pc ≠ BitVec.ofNat 64 (4 * q.2)

/-- Whether an instruction is an operator, which a slot holds; the other ones with a word are the control core's. -/
def isOperator (i : Instr) : Bool := (planOf i).isSome

/-- The bytes at an address are the word w, little-endian. -/
def WordAt (s : State) (a : Nat) (w : BitVec 32) : Prop := ∀ j, j < 4 → s.byteAt (a + j) = w.extractLsb' (8 * j) 8

/-- Fields of an operator word with two ports, two destinations and a tag action. -/
def opf (a b : BitVec 3) (d0 d1 : BitVec 7) (t : BitVec 4) : OpFields := ⟨a, b, d0, d1, t⟩

end Sys2Proof.Claims

/-- R54 to R59, R62, R64: decoding the word of a well-formed instruction gives that instruction back, whatever its operands: of a control
instruction by the control core's decoder, of an operator by that of slots. -/
def Obligations.DecodeInvertsEncode : Prop :=
  ∀ (i : Instr) (w : BitVec 32), i.wf = true → encode i = some w → (if isOperator i then decodeOperator w else decodeControl w) = some i

/-- Every step keeps memory in its canonical form and leaves no write undone (logs 2, 3). -/
def Obligations.StepKeepsInv : Prop := ∀ (s t : State), s.Inv → step s = .next t → t.Inv

/-- Every step keeps every instruction address of every control core a multiple of 4: k.pc, k.epc, k.tvec, k.lstart and k.lend (R61, R89, R93,
R103, R104, R256). -/
def Obligations.PcStaysAligned : Prop := ∀ (s t : State), PcAligned s → step s = .next t → PcAligned t

/-- R66, R90, R119, R326, R354, R360: what reset leaves: memory in canonical form with nothing listed, every control core with the status of its map,
no slot, entry, context or tile, M holding no sets, all 18 ports unlocked, no queue created, the count of ck 0 and the boot yet to come.
The general registers are 0 by the model's choice (log 4).
Readings of the model: logs 2, 3, 4, 31. -/
def Obligations.ResetLeaves : Prop :=
  State.reset.Inv ∧ PcAligned State.reset ∧ State.reset.mem = [] ∧ State.reset.ck = 0 ∧ State.reset.boot.phase = .atReset
    ∧ (∀ k r, (State.reset.ctl k).reg r = 0 ∧ (State.reset.ctl k).owner = none
        ∧ ∀ j, (State.reset.ctl k).status.getLsbD j = decide (j = 2))
    ∧ (∀ c x e i, State.reset.slot? c x e i = none ∧ (State.reset.dest c x e i).getLsbD 63 = false)
    ∧ State.reset.ctxs = [] ∧ State.reset.flow.allocs = [] ∧ State.reset.flow.holder = [] ∧ State.reset.host.queues = []
    ∧ ∀ p, p < 18 → (State.reset.port? p).map (·.st) = some .unlocked

/-- R54, R61, R62, R23: a step runs the decoded instruction. At a control core's turn, where it may run and its page is executable without an ECC
error, the step is exec of the instruction its four bytes at k.pc decode to, in the state where that core is the running one (its
comparator counts again and a step of the debugger is used up). At an engine's turn it is exec of the chosen firing's operator (or of
MCONT, or of an EOS firing) with that firing out of its queue as the one being issued.
Readings of the model: logs 1, 5, 54. -/
def Obligations.StepRunsTheDecodedInstruction : Prop :=
  ∀ (s : State) (rest : List Turn),
    (∀ k w i, s.sched = .control k :: rest → MayRun s k → inExecPage (s.ctl k) (s.ctl k).pc = true →
      (∀ e ∈ s.ecc, ¬(coreKey k (s.ctl k).pc.toNat ≤ e ∧ e < coreKey k (s.ctl k).pc.toNat + 4)) →
      WordAt s (coreKey k (s.ctl k).pc.toNat) w → decodeControl w = some i →
      ∃ u, step s = exec i u ∧ u.lastRun = k ∧ { u with ctls := s.ctls, lastRun := s.lastRun, cursor := s.cursor, sched := s.sched } = s
        ∧ u.sched = rest ∧ (∀ j, j ≠ k → u.ctl j = s.ctl j)
        ∧ u.ctl k = { s.ctl k with brkPassed := false, steps := (s.ctl k).steps.map fun n => n - 1 })
    ∧ ∀ c e x p t, s.sched = .issue c e :: rest → ({ s with sched := rest } : State).choice c e = some (x, p) →
        ({ s with sched := rest } : State).pickSlot p = some t →
        (∀ f, p = .resume f → ∃ u, step s = exec (.mcont (wordFields mcontWord)) u ∧ u.firing = some f
          ∧ { u with firing := s.firing, nextId := s.nextId, sched := s.sched } = s)
        ∧ ∀ r i, p = .entry r → r.breaks t = false → (if r.allEos t then some .eosFiring else decodeOperator t.word) = some i →
            ∃ u, step s = exec i u ∧ u.firing = some (r.firing t s.nextId) ∧ u.ctls = s.ctls ∧ u.mem = s.mem ∧ u.cores = s.cores
              ∧ (∀ q ∈ u.flow.ready, q ∈ s.flow.ready) ∧ ¬(r ∈ u.flow.ready) ∧ ¬(r ∈ u.flow.cwait)

/-- R54 to R59, R62, R64: words written out from the encodings, one or more of each family, decode to the instruction they stand for. -/
def Obligations.DecodeReadsWords : Prop :=
  decodeControl 0x00A63800 = some (.add 5 6 7) ∧ decodeControl 0x08A6000C = some (.addImm 5 6 12) ∧ decodeControl 0x010C0412 = some (.mov 8 12 .w4)
    ∧ decodeControl 0x50200010 = some (.jal 1 16) ∧ decodeControl 0x6480FFFD = some (.bne 4 0 (-3)) ∧ decodeControl 0x78A00004 = some (.loop 5 4)
    ∧ decodeControl 0x94820010 = some (.ldd 4 2 16) ∧ decodeControl 0x99038000 = some (.ldv 8 3 .w4 0) ∧ decodeControl 0xAE823FF8 = some (.std 20 2 (-8))
    ∧ decodeControl 0x04853002 = some (.amcas 4 5 6) ∧ decodeControl 0xC0800600 = some (.krd 4 0x060) ∧ decodeControl 0xC4000005 = some .fenceDevice
    ∧ decodeControl 0xC8850000 = some (.gload 4 5) ∧ decodeControl 0xC9000404 = some (.trecv 8) ∧ decodeControl 0xCC000003 = some .wfe
    ∧ decodeControl 0xD0042803 = some (.orres 4 5) ∧ decodeControl 0xD4800000 = some (.lnch 4 0) ∧ decodeControl 0x00000600 = none
    ∧ decodeOperator 0x02040800 = some (.mmaz (opf 0 1 1 0 0)) ∧ decodeOperator 0x4A080800 = some (.vmul (opf 0 2 1 0 0))
    ∧ decodeOperator 0x210BF800 = some (.tst (opf 0 2 127 0 0)) ∧ decodeOperator 0x48040801 = some (.vadd (opf 0 1 1 0 1))
    ∧ decodeOperator 0x91140800 = some (.pass (opf 0 5 1 0 0)) ∧ decodeOperator 0xA2140000 = some (.seal (opf 0 5 0 0 0))
    ∧ decodeOperator 0x00000000 = none
end

