-- ==== Sys2Proof/Laws/Memory.lean ====
section
/-! SUPPORT. Memory: a read after a write, the bytes a write leaves alone, the canonical form kept, and what ending a step does. -/

namespace Sys2Proof.Machine

/-- The canonical form said without recursion: addresses rise, and no listed byte is 0. -/
theorem Memory.wf_iff (m : Memory) : m.wf = true ↔ m.Pairwise (fun p q => p.1 < q.1) ∧ ∀ p ∈ m, p.2 ≠ 0 := by
  induction m with
  | nil => simp [Memory.wf]
  | cons p t ih =>
    obtain ⟨a, v⟩ := p
    cases t with
    | nil => simp [Memory.wf]
    | cons q t =>
      obtain ⟨b, w⟩ := q
      have hw : Memory.wf ((a, v) :: (b, w) :: t) = (v != 0 && decide (a < b) && Memory.wf ((b, w) :: t)) := rfl
      simp only [hw, Bool.and_eq_true, ih, List.pairwise_cons, List.forall_mem_cons, bne_iff_ne, decide_eq_true_eq]
      constructor
      · rintro ⟨⟨hv, hab⟩, ⟨hb, ht⟩, hn, hz⟩
        exact ⟨⟨⟨hab, fun q hq => Nat.lt_trans hab (hb q hq)⟩, hb, ht⟩, hv, hn, hz⟩
      · rintro ⟨⟨⟨hab, _⟩, hb, ht⟩, hv, hn, hz⟩
        exact ⟨⟨hv, hab⟩, ⟨hb, ht⟩, hn, hz⟩

theorem Memory.byte_of_absent {m : Memory} {a : Nat} (h : ∀ p ∈ m, p.1 ≠ a) : m.byte a = 0 := by
  induction m with
  | nil => rfl
  | cons p t ih =>
    rw [List.forall_mem_cons] at h
    simp [Memory.byte, h.1, ih h.2]

theorem Memory.byte_append_left {m n : Memory} {a : Nat} (h : ∀ p ∈ n, p.1 ≠ a) : Memory.byte (m ++ n) a = m.byte a := by
  induction m with
  | nil => exact Memory.byte_of_absent h
  | cons p t ih => simp only [List.cons_append, Memory.byte, ih]

theorem Memory.byte_append_right {m n : Memory} {a : Nat} (h : ∀ p ∈ m, p.1 ≠ a) : Memory.byte (m ++ n) a = n.byte a := by
  induction m with
  | nil => rfl
  | cons p t ih =>
    rw [List.forall_mem_cons] at h
    simp [Memory.byte, h.1, ih h.2]

theorem Memory.below_sublist (m : Memory) (a : Nat) : (m.below a).Sublist m := by
  induction m with
  | nil => simp [Memory.below]
  | cons p t ih =>
    simp only [Memory.below]
    split
    · exact ih.cons_cons _
    · exact List.nil_sublist _

theorem Memory.above_sublist (m : Memory) (a : Nat) : (m.above a).Sublist m := by
  induction m with
  | nil => simp [Memory.above]
  | cons p t ih =>
    simp only [Memory.above]
    split
    · exact ih.cons _
    · exact List.Sublist.refl _

theorem Memory.below_lt {m : Memory} {a : Nat} : ∀ p ∈ m.below a, p.1 < a := by
  induction m with
  | nil => simp [Memory.below]
  | cons p t ih =>
    intro q hq
    simp only [Memory.below] at hq
    split at hq
    · rcases List.mem_cons.mp hq with rfl | h
      · assumption
      · exact ih q h
    · simp at hq

theorem Memory.above_ge {m : Memory} {a : Nat} (hm : m.Pairwise fun p q => p.1 < q.1) : ∀ p ∈ m.above a, a ≤ p.1 := by
  induction m with
  | nil => simp [Memory.above]
  | cons p t ih =>
    intro q hq
    rw [List.pairwise_cons] at hm
    simp only [Memory.above] at hq
    split at hq
    · exact ih hm.2 q hq
    · rename_i hk
      rcases List.mem_cons.mp hq with rfl | h
      · omega
      · have := hm.1 q h; omega

theorem Memory.byte_below {m : Memory} {a k : Nat} (hm : m.Pairwise fun p q => p.1 < q.1) (hk : k < a) :
    (m.below a).byte k = m.byte k := by
  induction m with
  | nil => rfl
  | cons p t ih =>
    rw [List.pairwise_cons] at hm
    simp only [Memory.below]
    split
    · simp only [Memory.byte, ih hm.2]
    · rename_i hp
      refine (Memory.byte_of_absent fun q hq => ?_).symm
      rcases List.mem_cons.mp hq with rfl | h
      · omega
      · have := hm.1 q h; omega

theorem Memory.byte_above {m : Memory} {a k : Nat} (hk : a ≤ k) : (m.above a).byte k = m.byte k := by
  induction m with
  | nil => rfl
  | cons p t ih =>
    simp only [Memory.above]
    split
    · rw [ih]; simp only [Memory.byte]; rw [if_neg (by omega)]
    · rfl

theorem Memory.cells_mem {bs : List Byte} {a : Nat} : ∀ p ∈ Memory.cells a bs, a ≤ p.1 ∧ p.1 < a + bs.length ∧ p.2 ≠ 0 := by
  induction bs generalizing a with
  | nil => simp [Memory.cells]
  | cons b t ih =>
    intro p hp
    simp only [Memory.cells] at hp
    split at hp
    · have h := ih p hp; rw [List.length_cons]; exact ⟨by omega, by omega, h.2.2⟩
    · rcases List.mem_cons.mp hp with rfl | h
      · simp_all
      · have h := ih p h; rw [List.length_cons]; exact ⟨by omega, by omega, h.2.2⟩

theorem Memory.cells_sorted (bs : List Byte) (a : Nat) : (Memory.cells a bs).Pairwise fun p q => p.1 < q.1 := by
  induction bs generalizing a with
  | nil => simp [Memory.cells]
  | cons b t ih =>
    simp only [Memory.cells]
    split
    · exact ih _
    · exact List.pairwise_cons.mpr ⟨fun p hp => by have := Memory.cells_mem p hp; show a < p.1; omega, ih _⟩

theorem Memory.byte_cells {bs : List Byte} {a k : Nat} (hk : a ≤ k) : (Memory.cells a bs).byte k = bs.getD (k - a) 0 := by
  induction bs generalizing a with
  | nil => rfl
  | cons b t ih =>
    rcases Nat.eq_or_lt_of_le hk with rfl | h
    · by_cases hb : b = 0
      · simp only [Memory.cells, hb, if_true, Nat.sub_self, List.getD_cons_zero]
        exact Memory.byte_of_absent fun p hp => by have := Memory.cells_mem p hp; omega
      · rw [Memory.cells, if_neg hb]; simp [Memory.byte]
    · have e : k - a = (k - (a + 1)) + 1 := by omega
      rw [e, List.getD_cons_succ, ← ih (by omega)]
      simp only [Memory.cells]
      split
      · rfl
      · simp only [Memory.byte]; rw [if_neg (by omega)]

/-- A write keeps the canonical form. -/
theorem Memory.write_wf {m : Memory} (h : m.wf = true) (a : Nat) (bs : List Byte) : (m.write a bs).wf = true := by
  rw [Memory.wf_iff] at h ⊢
  refine ⟨?_, fun p hp => ?_⟩
  · rw [Memory.write, List.pairwise_append]
    refine ⟨h.1.sublist (m.below_sublist a), ?_, fun p hp q hq => ?_⟩
    · rw [List.pairwise_append]
      refine ⟨Memory.cells_sorted bs a, h.1.sublist (m.above_sublist _), fun p hp q hq => ?_⟩
      have := Memory.cells_mem p hp
      have := Memory.above_ge h.1 q hq
      omega
    · have := Memory.below_lt p hp
      rcases List.mem_append.mp hq with hc | hc
      · have := Memory.cells_mem q hc; omega
      · have := Memory.above_ge h.1 q hc; omega
  · rcases List.mem_append.mp hp with hc | hc
    · exact h.2 p ((m.below_sublist a).subset hc)
    · rcases List.mem_append.mp hc with hc | hc
      · exact (Memory.cells_mem p hc).2.2
      · exact h.2 p ((m.above_sublist _).subset hc)

/-- A byte after a write: the byte written there, or what it was. -/
theorem Memory.byte_write {m : Memory} (h : m.wf = true) (a : Nat) (bs : List Byte) (k : Nat) :
    (m.write a bs).byte k = if a ≤ k ∧ k < a + bs.length then bs.getD (k - a) 0 else m.byte k := by
  have hm := ((Memory.wf_iff m).mp h).1
  rw [Memory.write]
  split
  · rename_i hk
    rw [Memory.byte_append_right fun p hp => by have := Memory.below_lt p hp; omega,
      Memory.byte_append_left fun p hp => by have := Memory.above_ge hm p hp; omega]
    exact Memory.byte_cells hk.1
  · rename_i hk
    by_cases hlt : k < a
    · rw [Memory.byte_append_left fun p hp => ?_, Memory.byte_below hm hlt]
      rcases List.mem_append.mp hp with hc | hc
      · have := Memory.cells_mem p hc; omega
      · have := Memory.above_ge hm p hc; omega
    · rw [Memory.byte_append_right fun p hp => by have := Memory.below_lt p hp; omega,
        Memory.byte_append_right fun p hp => by have := Memory.cells_mem p hp; omega,
        Memory.byte_above (by omega)]

theorem applyWrites_wf {m : Memory} (h : m.wf = true) (ws : List Write) : (applyWrites m ws).wf = true := by
  induction ws generalizing m with
  | nil => exact h
  | cons w t ih => exact ih (Memory.write_wf h w.addr w.bytes)

/-- A byte that no write of a step covers stays as it was. -/
theorem applyWrites_frame {m : Memory} (h : m.wf = true) {ws : List Write} {k : Nat} (hk : ∀ w ∈ ws, w.covers k = false) :
    (applyWrites m ws).byte k = m.byte k := by
  induction ws generalizing m with
  | nil => rfl
  | cons w t ih =>
    rw [List.forall_mem_cons] at hk
    have h1 := ih (Memory.write_wf h w.addr w.bytes) hk.2
    have h2 : ¬(w.addr ≤ k ∧ k < w.addr + w.bytes.length) := by simpa [Write.covers] using hk.1
    exact h1.trans (by rw [Memory.byte_write h, if_neg h2])

/-- Two canonical memories that read alike are one list. -/
theorem Memory.ext {m n : Memory} (hm : m.wf = true) (hn : n.wf = true) (h : ∀ k, m.byte k = n.byte k) : m = n := by
  have mem_byte : ∀ {l : Memory}, l.wf = true → ∀ p, p ∈ l ↔ p.2 ≠ 0 ∧ l.byte p.1 = p.2 := by
    intro l hl p
    rw [Memory.wf_iff] at hl
    obtain ⟨hs, hz⟩ := hl
    induction l with
    | nil => simp only [List.not_mem_nil, Memory.byte, false_iff]; rintro ⟨h0, h1⟩; exact h0 h1.symm
    | cons q t ih =>
      rw [List.pairwise_cons] at hs
      rw [List.forall_mem_cons] at hz
      obtain ⟨a, v⟩ := q
      obtain ⟨b, w⟩ := p
      by_cases hab : a = b
      · subst hab
        simp only [List.mem_cons, Prod.mk.injEq, true_and, Memory.byte, if_true]
        constructor
        · rintro (rfl | hin)
          · exact ⟨hz.1, rfl⟩
          · exact absurd (hs.1 _ hin) (Nat.lt_irrefl _)
        · rintro ⟨_, rfl⟩; exact Or.inl rfl
      · simp only [List.mem_cons, Prod.mk.injEq, Memory.byte, if_neg hab, ih hs.2 hz.2]
        constructor
        · rintro (⟨rfl, _⟩ | hh)
          · exact absurd rfl hab
          · exact hh
        · exact Or.inr
  have hsub : ∀ p, p ∈ m ↔ p ∈ n := fun p => by rw [mem_byte hm, mem_byte hn, h]
  have asym : ∀ {l : Memory}, l.Pairwise (fun p q => p.1 < q.1) → l.Nodup := fun hl =>
    hl.imp fun {a b} hab (e : a = b) => by subst e; exact Nat.lt_irrefl _ hab
  have sm := ((Memory.wf_iff m).mp hm).1
  have sn := ((Memory.wf_iff n).mp hn).1
  have hp : m.Perm n := (List.perm_ext_iff_of_nodup (asym sm) (asym sn)).mpr fun p => hsub p
  exact List.Perm.eq_of_pairwise (le := fun p q => p.1 < q.1) (fun a b _ _ h1 h2 => absurd (Nat.lt_trans h1 h2) (Nat.lt_irrefl _)) sm sn hp

/-! ### The end of a step -/

theorem finish_eq {s t u : State} (h : finish s t = .next u) :
    u = { t with mem := applyWrites s.mem t.log, ecc := t.ecc.filter fun k => !(t.log.any fun w => w.covers k), log := [] } := by
  unfold finish at h
  exact (Host.Outcome.next.inj h).symm

/-- The end of a step keeps memory canonical and leaves no write over. -/
theorem finish_mem {s t u : State} (h : finish s t = .next u) (hm : s.mem.wf = true) : u.mem.wf = true ∧ u.log = [] := by
  rw [finish_eq h]
  exact ⟨applyWrites_wf hm _, rfl⟩

/-- The end of a step leaves every byte that no write of the step covers. -/
theorem finish_frame {s t u : State} (h : finish s t = .next u) (hm : s.mem.wf = true) {k : Nat}
    (hk : ∀ w ∈ t.log, w.covers k = false) : u.byteAt k = s.byteAt k := by
  rw [finish_eq h]
  exact applyWrites_frame hm hk

end Sys2Proof.Machine
end

