-- ==== Sys2Proof/Laws/State.lean ====
section
/-! SUPPORT. What each update of State leaves in each field, so that no proof unfolds a record update. -/

namespace Sys2Proof.Machine

variable (s : State)

@[simp] theorem State.setCtl_mem (c : Ctl) : (s.setCtl c).mem = s.mem := rfl
@[simp] theorem State.setCtl_log (c : Ctl) : (s.setCtl c).log = s.log := rfl
@[simp] theorem State.setCtl_ecc (c : Ctl) : (s.setCtl c).ecc = s.ecc := rfl
@[simp] theorem State.setCtl_ctls (c : Ctl) : (s.setCtl c).ctls = upsert (fun d => d.core == c.core) c s.ctls := rfl
@[simp] theorem State.setCtl_cores (c : Ctl) : (s.setCtl c).cores = s.cores := rfl
@[simp] theorem State.setCtl_flow (c : Ctl) : (s.setCtl c).flow = s.flow := rfl
@[simp] theorem State.setCtl_msys (c : Ctl) : (s.setCtl c).msys = s.msys := rfl
@[simp] theorem State.setCtl_ctxs (c : Ctl) : (s.setCtl c).ctxs = s.ctxs := rfl
@[simp] theorem State.setCtl_fabric (c : Ctl) : (s.setCtl c).fabric = s.fabric := rfl
@[simp] theorem State.setCtl_host (c : Ctl) : (s.setCtl c).host = s.host := rfl
@[simp] theorem State.setCtl_boot (c : Ctl) : (s.setCtl c).boot = s.boot := rfl
@[simp] theorem State.setCtl_devId (c : Ctl) : (s.setCtl c).devId = s.devId := rfl
@[simp] theorem State.setCtl_ck (c : Ctl) : (s.setCtl c).ck = s.ck := rfl
@[simp] theorem State.setCtl_sched (c : Ctl) : (s.setCtl c).sched = s.sched := rfl
@[simp] theorem State.setCtl_firing (c : Ctl) : (s.setCtl c).firing = s.firing := rfl
@[simp] theorem State.setCtl_nextId (c : Ctl) : (s.setCtl c).nextId = s.nextId := rfl
@[simp] theorem State.setCtl_free (c : Ctl) : (s.setCtl c).free = s.free := rfl
@[simp] theorem State.setCtl_lastRun (c : Ctl) : (s.setCtl c).lastRun = s.lastRun := rfl
@[simp] theorem State.setCtl_cursor (c : Ctl) : (s.setCtl c).cursor = s.cursor := rfl

@[simp] theorem State.modCtx_mem (id : Nat) (f : Ctx → Ctx) : (s.modCtx id f).mem = s.mem := rfl
@[simp] theorem State.modCtx_log (id : Nat) (f : Ctx → Ctx) : (s.modCtx id f).log = s.log := rfl
@[simp] theorem State.modCtx_ecc (id : Nat) (f : Ctx → Ctx) : (s.modCtx id f).ecc = s.ecc := rfl
@[simp] theorem State.modCtx_ctls (id : Nat) (f : Ctx → Ctx) : (s.modCtx id f).ctls = s.ctls := rfl
@[simp] theorem State.modCtx_cores (id : Nat) (f : Ctx → Ctx) : (s.modCtx id f).cores = s.cores := rfl
@[simp] theorem State.modCtx_flow (id : Nat) (f : Ctx → Ctx) : (s.modCtx id f).flow = s.flow := rfl
@[simp] theorem State.modCtx_msys (id : Nat) (f : Ctx → Ctx) : (s.modCtx id f).msys = s.msys := rfl
@[simp] theorem State.modCtx_ctxs (id : Nat) (f : Ctx → Ctx) : (s.modCtx id f).ctxs = modify (fun x => x.id == id) f s.ctxs := rfl
@[simp] theorem State.modCtx_fabric (id : Nat) (f : Ctx → Ctx) : (s.modCtx id f).fabric = s.fabric := rfl
@[simp] theorem State.modCtx_host (id : Nat) (f : Ctx → Ctx) : (s.modCtx id f).host = s.host := rfl
@[simp] theorem State.modCtx_boot (id : Nat) (f : Ctx → Ctx) : (s.modCtx id f).boot = s.boot := rfl
@[simp] theorem State.modCtx_devId (id : Nat) (f : Ctx → Ctx) : (s.modCtx id f).devId = s.devId := rfl
@[simp] theorem State.modCtx_ck (id : Nat) (f : Ctx → Ctx) : (s.modCtx id f).ck = s.ck := rfl
@[simp] theorem State.modCtx_sched (id : Nat) (f : Ctx → Ctx) : (s.modCtx id f).sched = s.sched := rfl
@[simp] theorem State.modCtx_firing (id : Nat) (f : Ctx → Ctx) : (s.modCtx id f).firing = s.firing := rfl
@[simp] theorem State.modCtx_nextId (id : Nat) (f : Ctx → Ctx) : (s.modCtx id f).nextId = s.nextId := rfl
@[simp] theorem State.modCtx_free (id : Nat) (f : Ctx → Ctx) : (s.modCtx id f).free = s.free := rfl
@[simp] theorem State.modCtx_lastRun (id : Nat) (f : Ctx → Ctx) : (s.modCtx id f).lastRun = s.lastRun := rfl
@[simp] theorem State.modCtx_cursor (id : Nat) (f : Ctx → Ctx) : (s.modCtx id f).cursor = s.cursor := rfl

@[simp] theorem State.modCctx_mem (core ctx : Nat) (f : CoreCtx → CoreCtx) : (s.modCctx core ctx f).mem = s.mem := rfl
@[simp] theorem State.modCctx_log (core ctx : Nat) (f : CoreCtx → CoreCtx) : (s.modCctx core ctx f).log = s.log := rfl
@[simp] theorem State.modCctx_ecc (core ctx : Nat) (f : CoreCtx → CoreCtx) : (s.modCctx core ctx f).ecc = s.ecc := rfl
@[simp] theorem State.modCctx_ctls (core ctx : Nat) (f : CoreCtx → CoreCtx) : (s.modCctx core ctx f).ctls = s.ctls := rfl
@[simp] theorem State.modCctx_cores (core ctx : Nat) (f : CoreCtx → CoreCtx) : (s.modCctx core ctx f).cores = modify (fun x => x.core == core && x.ctx == ctx) f s.cores := rfl
@[simp] theorem State.modCctx_flow (core ctx : Nat) (f : CoreCtx → CoreCtx) : (s.modCctx core ctx f).flow = s.flow := rfl
@[simp] theorem State.modCctx_msys (core ctx : Nat) (f : CoreCtx → CoreCtx) : (s.modCctx core ctx f).msys = s.msys := rfl
@[simp] theorem State.modCctx_ctxs (core ctx : Nat) (f : CoreCtx → CoreCtx) : (s.modCctx core ctx f).ctxs = s.ctxs := rfl
@[simp] theorem State.modCctx_fabric (core ctx : Nat) (f : CoreCtx → CoreCtx) : (s.modCctx core ctx f).fabric = s.fabric := rfl
@[simp] theorem State.modCctx_host (core ctx : Nat) (f : CoreCtx → CoreCtx) : (s.modCctx core ctx f).host = s.host := rfl
@[simp] theorem State.modCctx_boot (core ctx : Nat) (f : CoreCtx → CoreCtx) : (s.modCctx core ctx f).boot = s.boot := rfl
@[simp] theorem State.modCctx_devId (core ctx : Nat) (f : CoreCtx → CoreCtx) : (s.modCctx core ctx f).devId = s.devId := rfl
@[simp] theorem State.modCctx_ck (core ctx : Nat) (f : CoreCtx → CoreCtx) : (s.modCctx core ctx f).ck = s.ck := rfl
@[simp] theorem State.modCctx_sched (core ctx : Nat) (f : CoreCtx → CoreCtx) : (s.modCctx core ctx f).sched = s.sched := rfl
@[simp] theorem State.modCctx_firing (core ctx : Nat) (f : CoreCtx → CoreCtx) : (s.modCctx core ctx f).firing = s.firing := rfl
@[simp] theorem State.modCctx_nextId (core ctx : Nat) (f : CoreCtx → CoreCtx) : (s.modCctx core ctx f).nextId = s.nextId := rfl
@[simp] theorem State.modCctx_free (core ctx : Nat) (f : CoreCtx → CoreCtx) : (s.modCctx core ctx f).free = s.free := rfl
@[simp] theorem State.modCctx_lastRun (core ctx : Nat) (f : CoreCtx → CoreCtx) : (s.modCctx core ctx f).lastRun = s.lastRun := rfl
@[simp] theorem State.modCctx_cursor (core ctx : Nat) (f : CoreCtx → CoreCtx) : (s.modCctx core ctx f).cursor = s.cursor := rfl

@[simp] theorem State.modFlow_mem (f : Flow → Flow) : (s.modFlow f).mem = s.mem := rfl
@[simp] theorem State.modFlow_log (f : Flow → Flow) : (s.modFlow f).log = s.log := rfl
@[simp] theorem State.modFlow_ecc (f : Flow → Flow) : (s.modFlow f).ecc = s.ecc := rfl
@[simp] theorem State.modFlow_ctls (f : Flow → Flow) : (s.modFlow f).ctls = s.ctls := rfl
@[simp] theorem State.modFlow_cores (f : Flow → Flow) : (s.modFlow f).cores = s.cores := rfl
@[simp] theorem State.modFlow_flow (f : Flow → Flow) : (s.modFlow f).flow = f s.flow := rfl
@[simp] theorem State.modFlow_msys (f : Flow → Flow) : (s.modFlow f).msys = s.msys := rfl
@[simp] theorem State.modFlow_ctxs (f : Flow → Flow) : (s.modFlow f).ctxs = s.ctxs := rfl
@[simp] theorem State.modFlow_fabric (f : Flow → Flow) : (s.modFlow f).fabric = s.fabric := rfl
@[simp] theorem State.modFlow_host (f : Flow → Flow) : (s.modFlow f).host = s.host := rfl
@[simp] theorem State.modFlow_boot (f : Flow → Flow) : (s.modFlow f).boot = s.boot := rfl
@[simp] theorem State.modFlow_devId (f : Flow → Flow) : (s.modFlow f).devId = s.devId := rfl
@[simp] theorem State.modFlow_ck (f : Flow → Flow) : (s.modFlow f).ck = s.ck := rfl
@[simp] theorem State.modFlow_sched (f : Flow → Flow) : (s.modFlow f).sched = s.sched := rfl
@[simp] theorem State.modFlow_firing (f : Flow → Flow) : (s.modFlow f).firing = s.firing := rfl
@[simp] theorem State.modFlow_nextId (f : Flow → Flow) : (s.modFlow f).nextId = s.nextId := rfl
@[simp] theorem State.modFlow_free (f : Flow → Flow) : (s.modFlow f).free = s.free := rfl
@[simp] theorem State.modFlow_lastRun (f : Flow → Flow) : (s.modFlow f).lastRun = s.lastRun := rfl
@[simp] theorem State.modFlow_cursor (f : Flow → Flow) : (s.modFlow f).cursor = s.cursor := rfl

@[simp] theorem State.modMsys_mem (f : MemSys → MemSys) : (s.modMsys f).mem = s.mem := rfl
@[simp] theorem State.modMsys_log (f : MemSys → MemSys) : (s.modMsys f).log = s.log := rfl
@[simp] theorem State.modMsys_ecc (f : MemSys → MemSys) : (s.modMsys f).ecc = s.ecc := rfl
@[simp] theorem State.modMsys_ctls (f : MemSys → MemSys) : (s.modMsys f).ctls = s.ctls := rfl
@[simp] theorem State.modMsys_cores (f : MemSys → MemSys) : (s.modMsys f).cores = s.cores := rfl
@[simp] theorem State.modMsys_flow (f : MemSys → MemSys) : (s.modMsys f).flow = s.flow := rfl
@[simp] theorem State.modMsys_msys (f : MemSys → MemSys) : (s.modMsys f).msys = f s.msys := rfl
@[simp] theorem State.modMsys_ctxs (f : MemSys → MemSys) : (s.modMsys f).ctxs = s.ctxs := rfl
@[simp] theorem State.modMsys_fabric (f : MemSys → MemSys) : (s.modMsys f).fabric = s.fabric := rfl
@[simp] theorem State.modMsys_host (f : MemSys → MemSys) : (s.modMsys f).host = s.host := rfl
@[simp] theorem State.modMsys_boot (f : MemSys → MemSys) : (s.modMsys f).boot = s.boot := rfl
@[simp] theorem State.modMsys_devId (f : MemSys → MemSys) : (s.modMsys f).devId = s.devId := rfl
@[simp] theorem State.modMsys_ck (f : MemSys → MemSys) : (s.modMsys f).ck = s.ck := rfl
@[simp] theorem State.modMsys_sched (f : MemSys → MemSys) : (s.modMsys f).sched = s.sched := rfl
@[simp] theorem State.modMsys_firing (f : MemSys → MemSys) : (s.modMsys f).firing = s.firing := rfl
@[simp] theorem State.modMsys_nextId (f : MemSys → MemSys) : (s.modMsys f).nextId = s.nextId := rfl
@[simp] theorem State.modMsys_free (f : MemSys → MemSys) : (s.modMsys f).free = s.free := rfl
@[simp] theorem State.modMsys_lastRun (f : MemSys → MemSys) : (s.modMsys f).lastRun = s.lastRun := rfl
@[simp] theorem State.modMsys_cursor (f : MemSys → MemSys) : (s.modMsys f).cursor = s.cursor := rfl

@[simp] theorem State.modHost_mem (f : HostSide → HostSide) : (s.modHost f).mem = s.mem := rfl
@[simp] theorem State.modHost_log (f : HostSide → HostSide) : (s.modHost f).log = s.log := rfl
@[simp] theorem State.modHost_ecc (f : HostSide → HostSide) : (s.modHost f).ecc = s.ecc := rfl
@[simp] theorem State.modHost_ctls (f : HostSide → HostSide) : (s.modHost f).ctls = s.ctls := rfl
@[simp] theorem State.modHost_cores (f : HostSide → HostSide) : (s.modHost f).cores = s.cores := rfl
@[simp] theorem State.modHost_flow (f : HostSide → HostSide) : (s.modHost f).flow = s.flow := rfl
@[simp] theorem State.modHost_msys (f : HostSide → HostSide) : (s.modHost f).msys = s.msys := rfl
@[simp] theorem State.modHost_ctxs (f : HostSide → HostSide) : (s.modHost f).ctxs = s.ctxs := rfl
@[simp] theorem State.modHost_fabric (f : HostSide → HostSide) : (s.modHost f).fabric = s.fabric := rfl
@[simp] theorem State.modHost_host (f : HostSide → HostSide) : (s.modHost f).host = f s.host := rfl
@[simp] theorem State.modHost_boot (f : HostSide → HostSide) : (s.modHost f).boot = s.boot := rfl
@[simp] theorem State.modHost_devId (f : HostSide → HostSide) : (s.modHost f).devId = s.devId := rfl
@[simp] theorem State.modHost_ck (f : HostSide → HostSide) : (s.modHost f).ck = s.ck := rfl
@[simp] theorem State.modHost_sched (f : HostSide → HostSide) : (s.modHost f).sched = s.sched := rfl
@[simp] theorem State.modHost_firing (f : HostSide → HostSide) : (s.modHost f).firing = s.firing := rfl
@[simp] theorem State.modHost_nextId (f : HostSide → HostSide) : (s.modHost f).nextId = s.nextId := rfl
@[simp] theorem State.modHost_free (f : HostSide → HostSide) : (s.modHost f).free = s.free := rfl
@[simp] theorem State.modHost_lastRun (f : HostSide → HostSide) : (s.modHost f).lastRun = s.lastRun := rfl
@[simp] theorem State.modHost_cursor (f : HostSide → HostSide) : (s.modHost f).cursor = s.cursor := rfl

@[simp] theorem State.modFabric_mem (f : Fabric → Fabric) : (s.modFabric f).mem = s.mem := rfl
@[simp] theorem State.modFabric_log (f : Fabric → Fabric) : (s.modFabric f).log = s.log := rfl
@[simp] theorem State.modFabric_ecc (f : Fabric → Fabric) : (s.modFabric f).ecc = s.ecc := rfl
@[simp] theorem State.modFabric_ctls (f : Fabric → Fabric) : (s.modFabric f).ctls = s.ctls := rfl
@[simp] theorem State.modFabric_cores (f : Fabric → Fabric) : (s.modFabric f).cores = s.cores := rfl
@[simp] theorem State.modFabric_flow (f : Fabric → Fabric) : (s.modFabric f).flow = s.flow := rfl
@[simp] theorem State.modFabric_msys (f : Fabric → Fabric) : (s.modFabric f).msys = s.msys := rfl
@[simp] theorem State.modFabric_ctxs (f : Fabric → Fabric) : (s.modFabric f).ctxs = s.ctxs := rfl
@[simp] theorem State.modFabric_fabric (f : Fabric → Fabric) : (s.modFabric f).fabric = f s.fabric := rfl
@[simp] theorem State.modFabric_host (f : Fabric → Fabric) : (s.modFabric f).host = s.host := rfl
@[simp] theorem State.modFabric_boot (f : Fabric → Fabric) : (s.modFabric f).boot = s.boot := rfl
@[simp] theorem State.modFabric_devId (f : Fabric → Fabric) : (s.modFabric f).devId = s.devId := rfl
@[simp] theorem State.modFabric_ck (f : Fabric → Fabric) : (s.modFabric f).ck = s.ck := rfl
@[simp] theorem State.modFabric_sched (f : Fabric → Fabric) : (s.modFabric f).sched = s.sched := rfl
@[simp] theorem State.modFabric_firing (f : Fabric → Fabric) : (s.modFabric f).firing = s.firing := rfl
@[simp] theorem State.modFabric_nextId (f : Fabric → Fabric) : (s.modFabric f).nextId = s.nextId := rfl
@[simp] theorem State.modFabric_free (f : Fabric → Fabric) : (s.modFabric f).free = s.free := rfl
@[simp] theorem State.modFabric_lastRun (f : Fabric → Fabric) : (s.modFabric f).lastRun = s.lastRun := rfl
@[simp] theorem State.modFabric_cursor (f : Fabric → Fabric) : (s.modFabric f).cursor = s.cursor := rfl

@[simp] theorem State.write_mem (a : Nat) (bs : List Byte) : (s.write a bs).mem = s.mem := rfl
@[simp] theorem State.write_log (a : Nat) (bs : List Byte) : (s.write a bs).log = s.log ++ [⟨a, bs⟩] := rfl
@[simp] theorem State.write_ecc (a : Nat) (bs : List Byte) : (s.write a bs).ecc = s.ecc := rfl
@[simp] theorem State.write_ctls (a : Nat) (bs : List Byte) : (s.write a bs).ctls = s.ctls := rfl
@[simp] theorem State.write_cores (a : Nat) (bs : List Byte) : (s.write a bs).cores = s.cores := rfl
@[simp] theorem State.write_flow (a : Nat) (bs : List Byte) : (s.write a bs).flow = s.flow := rfl
@[simp] theorem State.write_msys (a : Nat) (bs : List Byte) : (s.write a bs).msys = s.msys := rfl
@[simp] theorem State.write_ctxs (a : Nat) (bs : List Byte) : (s.write a bs).ctxs = s.ctxs := rfl
@[simp] theorem State.write_fabric (a : Nat) (bs : List Byte) : (s.write a bs).fabric = s.fabric := rfl
@[simp] theorem State.write_host (a : Nat) (bs : List Byte) : (s.write a bs).host = s.host := rfl
@[simp] theorem State.write_boot (a : Nat) (bs : List Byte) : (s.write a bs).boot = s.boot := rfl
@[simp] theorem State.write_devId (a : Nat) (bs : List Byte) : (s.write a bs).devId = s.devId := rfl
@[simp] theorem State.write_ck (a : Nat) (bs : List Byte) : (s.write a bs).ck = s.ck := rfl
@[simp] theorem State.write_sched (a : Nat) (bs : List Byte) : (s.write a bs).sched = s.sched := rfl
@[simp] theorem State.write_firing (a : Nat) (bs : List Byte) : (s.write a bs).firing = s.firing := rfl
@[simp] theorem State.write_nextId (a : Nat) (bs : List Byte) : (s.write a bs).nextId = s.nextId := rfl
@[simp] theorem State.write_free (a : Nat) (bs : List Byte) : (s.write a bs).free = s.free := rfl
@[simp] theorem State.write_lastRun (a : Nat) (bs : List Byte) : (s.write a bs).lastRun = s.lastRun := rfl
@[simp] theorem State.write_cursor (a : Nat) (bs : List Byte) : (s.write a bs).cursor = s.cursor := rfl

@[simp] theorem State.record_mem (e : MgmtEvent) : (s.record e).mem = s.mem := rfl
@[simp] theorem State.record_log (e : MgmtEvent) : (s.record e).log = s.log := rfl
@[simp] theorem State.record_ecc (e : MgmtEvent) : (s.record e).ecc = s.ecc := rfl
@[simp] theorem State.record_ctls (e : MgmtEvent) : (s.record e).ctls = s.ctls := rfl
@[simp] theorem State.record_cores (e : MgmtEvent) : (s.record e).cores = s.cores := rfl
@[simp] theorem State.record_flow (e : MgmtEvent) : (s.record e).flow = s.flow := rfl
@[simp] theorem State.record_msys (e : MgmtEvent) : (s.record e).msys = s.msys := rfl
@[simp] theorem State.record_ctxs (e : MgmtEvent) : (s.record e).ctxs = s.ctxs := rfl
@[simp] theorem State.record_fabric (e : MgmtEvent) : (s.record e).fabric = s.fabric := rfl
@[simp] theorem State.record_host (e : MgmtEvent) : (s.record e).host = { s.host with log := s.host.log ++ [e] } := rfl
@[simp] theorem State.record_boot (e : MgmtEvent) : (s.record e).boot = s.boot := rfl
@[simp] theorem State.record_devId (e : MgmtEvent) : (s.record e).devId = s.devId := rfl
@[simp] theorem State.record_ck (e : MgmtEvent) : (s.record e).ck = s.ck := rfl
@[simp] theorem State.record_sched (e : MgmtEvent) : (s.record e).sched = s.sched := rfl
@[simp] theorem State.record_firing (e : MgmtEvent) : (s.record e).firing = s.firing := rfl
@[simp] theorem State.record_nextId (e : MgmtEvent) : (s.record e).nextId = s.nextId := rfl
@[simp] theorem State.record_free (e : MgmtEvent) : (s.record e).free = s.free := rfl
@[simp] theorem State.record_lastRun (e : MgmtEvent) : (s.record e).lastRun = s.lastRun := rfl
@[simp] theorem State.record_cursor (e : MgmtEvent) : (s.record e).cursor = s.cursor := rfl

@[simp] theorem State.modFiring_mem (id : Nat) (f : Firing → Firing) : (s.modFiring id f).mem = s.mem := rfl
@[simp] theorem State.modFiring_log (id : Nat) (f : Firing → Firing) : (s.modFiring id f).log = s.log := rfl
@[simp] theorem State.modFiring_ecc (id : Nat) (f : Firing → Firing) : (s.modFiring id f).ecc = s.ecc := rfl
@[simp] theorem State.modFiring_ctls (id : Nat) (f : Firing → Firing) : (s.modFiring id f).ctls = s.ctls := rfl
@[simp] theorem State.modFiring_cores (id : Nat) (f : Firing → Firing) : (s.modFiring id f).cores = s.cores := rfl
@[simp] theorem State.modFiring_flow (id : Nat) (f : Firing → Firing) : (s.modFiring id f).flow = { s.flow with firings := modify (fun x => x.id == id) f s.flow.firings } := rfl
@[simp] theorem State.modFiring_msys (id : Nat) (f : Firing → Firing) : (s.modFiring id f).msys = s.msys := rfl
@[simp] theorem State.modFiring_ctxs (id : Nat) (f : Firing → Firing) : (s.modFiring id f).ctxs = s.ctxs := rfl
@[simp] theorem State.modFiring_fabric (id : Nat) (f : Firing → Firing) : (s.modFiring id f).fabric = s.fabric := rfl
@[simp] theorem State.modFiring_host (id : Nat) (f : Firing → Firing) : (s.modFiring id f).host = s.host := rfl
@[simp] theorem State.modFiring_boot (id : Nat) (f : Firing → Firing) : (s.modFiring id f).boot = s.boot := rfl
@[simp] theorem State.modFiring_devId (id : Nat) (f : Firing → Firing) : (s.modFiring id f).devId = s.devId := rfl
@[simp] theorem State.modFiring_ck (id : Nat) (f : Firing → Firing) : (s.modFiring id f).ck = s.ck := rfl
@[simp] theorem State.modFiring_sched (id : Nat) (f : Firing → Firing) : (s.modFiring id f).sched = s.sched := rfl
@[simp] theorem State.modFiring_firing (id : Nat) (f : Firing → Firing) : (s.modFiring id f).firing = s.firing := rfl
@[simp] theorem State.modFiring_nextId (id : Nat) (f : Firing → Firing) : (s.modFiring id f).nextId = s.nextId := rfl
@[simp] theorem State.modFiring_free (id : Nat) (f : Firing → Firing) : (s.modFiring id f).free = s.free := rfl
@[simp] theorem State.modFiring_lastRun (id : Nat) (f : Firing → Firing) : (s.modFiring id f).lastRun = s.lastRun := rfl
@[simp] theorem State.modFiring_cursor (id : Nat) (f : Firing → Firing) : (s.modFiring id f).cursor = s.cursor := rfl

@[simp] theorem State.modChest_mem (core ctx order : Nat) (f : Chest → Chest) : (s.modChest core ctx order f).mem = s.mem := rfl
@[simp] theorem State.modChest_log (core ctx order : Nat) (f : Chest → Chest) : (s.modChest core ctx order f).log = s.log := rfl
@[simp] theorem State.modChest_ecc (core ctx order : Nat) (f : Chest → Chest) : (s.modChest core ctx order f).ecc = s.ecc := rfl
@[simp] theorem State.modChest_ctls (core ctx order : Nat) (f : Chest → Chest) : (s.modChest core ctx order f).ctls = s.ctls := rfl
@[simp] theorem State.modChest_cores (core ctx order : Nat) (f : Chest → Chest) : (s.modChest core ctx order f).cores = s.cores := rfl
@[simp] theorem State.modChest_flow (core ctx order : Nat) (f : Chest → Chest) : (s.modChest core ctx order f).flow = s.flow := rfl
@[simp] theorem State.modChest_msys (core ctx order : Nat) (f : Chest → Chest) : (s.modChest core ctx order f).msys = { s.msys with chest := modify (fun e => e.core == core && e.ctx == ctx && e.order == order) f s.msys.chest } := rfl
@[simp] theorem State.modChest_ctxs (core ctx order : Nat) (f : Chest → Chest) : (s.modChest core ctx order f).ctxs = s.ctxs := rfl
@[simp] theorem State.modChest_fabric (core ctx order : Nat) (f : Chest → Chest) : (s.modChest core ctx order f).fabric = s.fabric := rfl
@[simp] theorem State.modChest_host (core ctx order : Nat) (f : Chest → Chest) : (s.modChest core ctx order f).host = s.host := rfl
@[simp] theorem State.modChest_boot (core ctx order : Nat) (f : Chest → Chest) : (s.modChest core ctx order f).boot = s.boot := rfl
@[simp] theorem State.modChest_devId (core ctx order : Nat) (f : Chest → Chest) : (s.modChest core ctx order f).devId = s.devId := rfl
@[simp] theorem State.modChest_ck (core ctx order : Nat) (f : Chest → Chest) : (s.modChest core ctx order f).ck = s.ck := rfl
@[simp] theorem State.modChest_sched (core ctx order : Nat) (f : Chest → Chest) : (s.modChest core ctx order f).sched = s.sched := rfl
@[simp] theorem State.modChest_firing (core ctx order : Nat) (f : Chest → Chest) : (s.modChest core ctx order f).firing = s.firing := rfl
@[simp] theorem State.modChest_nextId (core ctx order : Nat) (f : Chest → Chest) : (s.modChest core ctx order f).nextId = s.nextId := rfl
@[simp] theorem State.modChest_free (core ctx order : Nat) (f : Chest → Chest) : (s.modChest core ctx order f).free = s.free := rfl
@[simp] theorem State.modChest_lastRun (core ctx order : Nat) (f : Chest → Chest) : (s.modChest core ctx order f).lastRun = s.lastRun := rfl
@[simp] theorem State.modChest_cursor (core ctx order : Nat) (f : Chest → Chest) : (s.modChest core ctx order f).cursor = s.cursor := rfl

@[simp] theorem State.addStop_mem (core ctx : Nat) (st : Stop) : (s.addStop core ctx st).mem = s.mem := rfl
@[simp] theorem State.addStop_log (core ctx : Nat) (st : Stop) : (s.addStop core ctx st).log = s.log := rfl
@[simp] theorem State.addStop_ecc (core ctx : Nat) (st : Stop) : (s.addStop core ctx st).ecc = s.ecc := rfl
@[simp] theorem State.addStop_ctls (core ctx : Nat) (st : Stop) : (s.addStop core ctx st).ctls = s.ctls := rfl
@[simp] theorem State.addStop_cores (core ctx : Nat) (st : Stop) : (s.addStop core ctx st).cores = modify (fun x => x.core == core && x.ctx == ctx) (fun x => { x with stops := x.stops ++ [st] }) s.cores := rfl
@[simp] theorem State.addStop_flow (core ctx : Nat) (st : Stop) : (s.addStop core ctx st).flow = s.flow := rfl
@[simp] theorem State.addStop_msys (core ctx : Nat) (st : Stop) : (s.addStop core ctx st).msys = s.msys := rfl
@[simp] theorem State.addStop_ctxs (core ctx : Nat) (st : Stop) : (s.addStop core ctx st).ctxs = s.ctxs := rfl
@[simp] theorem State.addStop_fabric (core ctx : Nat) (st : Stop) : (s.addStop core ctx st).fabric = s.fabric := rfl
@[simp] theorem State.addStop_host (core ctx : Nat) (st : Stop) : (s.addStop core ctx st).host = s.host := rfl
@[simp] theorem State.addStop_boot (core ctx : Nat) (st : Stop) : (s.addStop core ctx st).boot = s.boot := rfl
@[simp] theorem State.addStop_devId (core ctx : Nat) (st : Stop) : (s.addStop core ctx st).devId = s.devId := rfl
@[simp] theorem State.addStop_ck (core ctx : Nat) (st : Stop) : (s.addStop core ctx st).ck = s.ck := rfl
@[simp] theorem State.addStop_sched (core ctx : Nat) (st : Stop) : (s.addStop core ctx st).sched = s.sched := rfl
@[simp] theorem State.addStop_firing (core ctx : Nat) (st : Stop) : (s.addStop core ctx st).firing = s.firing := rfl
@[simp] theorem State.addStop_nextId (core ctx : Nat) (st : Stop) : (s.addStop core ctx st).nextId = s.nextId := rfl
@[simp] theorem State.addStop_free (core ctx : Nat) (st : Stop) : (s.addStop core ctx st).free = s.free := rfl
@[simp] theorem State.addStop_lastRun (core ctx : Nat) (st : Stop) : (s.addStop core ctx st).lastRun = s.lastRun := rfl
@[simp] theorem State.addStop_cursor (core ctx : Nat) (st : Stop) : (s.addStop core ctx st).cursor = s.cursor := rfl

end Sys2Proof.Machine
end

