-- ==== Sys2Proof/Laws/Control.lean ====
section
/-! SUPPORT. The control core: finding it after an update, its registers, and what completing, jumping and waiting do. -/

namespace Sys2Proof.Machine

/-! ### Lists by key -/

theorem find?_upsert_same {α : Type} (p : α → Bool) (x : α) (hx : p x = true) (l : List α) : (upsert p x l).find? p = some x := by
  induction l with
  | nil => simp [upsert, hx]
  | cons y t ih => by_cases h : p y <;> simp [upsert, h, hx, ih]

theorem find?_upsert_other {α : Type} (p q : α → Bool) (x : α) (hx : q x = false) (hpq : ∀ y, p y = true → q y = false) (l : List α) :
    (upsert p x l).find? q = l.find? q := by
  induction l with
  | nil => simp [upsert, hx]
  | cons y t ih => by_cases h : p y <;> simp [upsert, h, hx, hpq, List.find?_cons, ih]

/-- A control core is found under its own number. -/
@[simp] theorem State.ctl_core (s : State) (k : Nat) : (s.ctl k).core = k := by
  unfold State.ctl
  cases h : s.ctls.find? fun c => c.core == k with
  | none => rfl
  | some c => simpa using List.find?_some h

theorem State.ctl_setCtl (s : State) (c : Ctl) (k : Nat) : (s.setCtl c).ctl k = if k = c.core then c else s.ctl k := by
  unfold State.ctl
  by_cases h : k = c.core
  · subst h
    simp [find?_upsert_same (fun d : Ctl => d.core == c.core) c (by simp)]
  · rw [if_neg h, State.setCtl_ctls, find?_upsert_other _ _ _ (by simpa using Ne.symm h)]
    intro y hy
    simp only [beq_iff_eq, beq_eq_false_iff_ne, ne_eq] at hy ⊢
    omega

theorem State.ctl_congr {s t : State} (h : s.ctls = t.ctls) (k : Nat) : s.ctl k = t.ctl k := by unfold State.ctl; rw [h]

/-! ### Registers -/

@[simp] theorem Ctl.reg_zero (c : Ctl) : c.reg 0 = 0 := rfl

theorem Ctl.reg_setReg (c : Ctl) (d r : Reg) (v : Word) :
    (c.setReg d v).reg r = if r = 0 then 0 else if r = d then v else c.reg r := by
  unfold Ctl.setReg Ctl.reg
  by_cases hr : r = 0
  · simp [hr]
  · by_cases hd : d = 0
    · rw [if_pos hd, if_neg hr, if_neg hr, if_neg fun e => hr (e.trans hd)]
    · simp only [hr, hd, if_false, Vector.getElem_set]
      by_cases h : r = d
      · simp [h]
      · have hn : d.toNat ≠ r.toNat := fun e => h (BitVec.eq_of_toNat_eq e.symm)
        simp [h, hn]

/-- A register write changes the registers only. -/
theorem Ctl.setReg_rest (c : Ctl) (d : Reg) (v : Word) : { c.setReg d v with regs := c.regs } = c := by
  unfold Ctl.setReg
  split <;> rfl

/-! ### The end of an instruction -/

/-- The state after a step that ended in t, when no write of the step stood in t but those of `t.log`. -/
def ended (s t : State) : State :=
  { t with mem := applyWrites s.mem t.log, ecc := t.ecc.filter fun k => !(t.log.any fun w => w.covers k), log := [] }

theorem finish_next (s t : State) : finish s t = .next (ended s t) := rfl

/-- A step that wrote nothing ends as it stands. -/
theorem ended_quiet {s t : State} (h : t.log = []) (hm : t.mem = s.mem) : ended s t = t := by
  unfold ended
  cases t
  simp_all [applyWrites]

theorem finish_quiet {s t : State} (h : t.log = []) (hm : t.mem = s.mem) : finish s t = .next t :=
  (finish_next s t).trans (congrArg _ (ended_quiet h hm))

/-- Completing an instruction that changed only its control core. -/
theorem complete_next {s : State} (h : s.log = []) (c0 c : Ctl) : complete s c0 c = .next (s.setCtl (c0.advance c)) := by
  exact finish_quiet (t := s.setCtl _) (by simpa using h) rfl

theorem jumpTo_next {s : State} (h : s.log = []) (c : Ctl) (p : Word) : jumpTo s c p = .next (s.setCtl { c with pc := p }) := by
  exact finish_quiet (t := s.setCtl _) (by simpa using h) rfl

theorem waitFor_next {s : State} (h : s.log = []) (c : Ctl) (w : Wait) : waitFor s c w = .next (s.setCtl { c with wait := w }) := by
  exact finish_quiet (t := s.setCtl _) (by simpa using h) rfl

/-- A synchronous cause outside a handler is a trap and nothing else. -/
theorem trapAt_next {s : State} (h : s.log = []) (c : Ctl) (hh : c.hnd = false) (code : Nat) (tval : Word) :
    trapAt s c code tval = .next (s.setCtl (c.trap false code c.pc tval)) := by
  unfold trapAt State.syncTrap
  rw [hh]
  exact finish_quiet (t := s.setCtl _) (by simpa using h) rfl

/-! ### The fields after completion -/

/-- Everything that completing an instruction does (R106): the three ways of the end check. -/
theorem Ctl.advance_cases (c0 c : Ctl) :
    ((c.lact = true ∧ c0.pc = c0.lend) ∧ 1 < c.lcount.toNat
      ∧ c0.advance c = { c with lcount := c.lcount - 1, pc := c.lstart, wait := .none })
    ∨ ((c.lact = true ∧ c0.pc = c0.lend) ∧ ¬ 1 < c.lcount.toNat
      ∧ c0.advance c = { c with lcount := 0, pc := c0.pc + 4, status := setBit c.status 5 false, wait := .none })
    ∨ (¬(c.lact = true ∧ c0.pc = c0.lend) ∧ c0.advance c = { c with pc := c0.pc + 4, wait := .none }) := by
  unfold Ctl.advance endCheck Ctl.setLact
  by_cases h : c.lact = true ∧ c0.pc = c0.lend
  · by_cases h1 : 1 < c.lcount.toNat
    · exact .inl ⟨h, h1, by rw [if_pos ⟨h.1, h.2⟩, if_pos h1]⟩
    · exact .inr (.inl ⟨h, h1, by rw [if_pos ⟨h.1, h.2⟩, if_neg h1]⟩)
  · exact .inr (.inr ⟨h, by rw [if_neg fun q => h ⟨q.1, q.2⟩]⟩)

@[simp] theorem Ctl.advance_regs (c0 c : Ctl) : (c0.advance c).regs = c.regs := by
  unfold Ctl.advance endCheck Ctl.setLact; split <;> (try split) <;> rfl

@[simp] theorem Ctl.advance_core (c0 c : Ctl) : (c0.advance c).core = c.core := by
  unfold Ctl.advance endCheck Ctl.setLact; split <;> (try split) <;> rfl

@[simp] theorem Ctl.advance_wait (c0 c : Ctl) : (c0.advance c).wait = .none := by
  unfold Ctl.advance endCheck Ctl.setLact; split <;> (try split) <;> rfl

@[simp] theorem Ctl.setReg_core (c : Ctl) (d : Reg) (v : Word) : (c.setReg d v).core = c.core := by unfold Ctl.setReg; split <;> rfl
@[simp] theorem Ctl.setReg_pc (c : Ctl) (d : Reg) (v : Word) : (c.setReg d v).pc = c.pc := by unfold Ctl.setReg; split <;> rfl
@[simp] theorem Ctl.setReg_status (c : Ctl) (d : Reg) (v : Word) : (c.setReg d v).status = c.status := by unfold Ctl.setReg; split <;> rfl
@[simp] theorem Ctl.setReg_lcount (c : Ctl) (d : Reg) (v : Word) : (c.setReg d v).lcount = c.lcount := by unfold Ctl.setReg; split <;> rfl
@[simp] theorem Ctl.setReg_lstart (c : Ctl) (d : Reg) (v : Word) : (c.setReg d v).lstart = c.lstart := by unfold Ctl.setReg; split <;> rfl
@[simp] theorem Ctl.setReg_lend (c : Ctl) (d : Reg) (v : Word) : (c.setReg d v).lend = c.lend := by unfold Ctl.setReg; split <;> rfl

end Sys2Proof.Machine
end

