-- ==== Sys2Proof/Laws/Fabric.lean ====
section
/-! SUPPORT. Ports (R331 to R336): what a change of one port does, and what messages sent on it leave. -/

namespace Sys2Proof.Machine

/-- One port changes, the others stay. -/
theorem State.port?_modPort (s : State) (p : Nat) (f : Port → Port) (k : Nat) :
    (s.modPort p f).port? k = if k = p then (s.port? k).map f else s.port? k := by
  unfold State.port? State.modPort State.modFabric
  rw [List.getElem?_modify]
  by_cases h : k = p
  · simp [h]
  · have h' : ¬ p = k := fun q => h q.symm
    simp [h, h']

/-- Nothing but the ports changes with one. -/
theorem State.modPort_rest (s : State) (p : Nat) (f : Port → Port) :
    { s.modPort p f with fabric := { (s.modPort p f).fabric with ports := s.fabric.ports } } = s := rfl

/-- A message leaves by the port's flits alone. -/
theorem Port.say_rest (t : Port) (message value : Nat) : { t.say message value with out := t.out } = t := rfl

/-- The flits of a control message. -/
@[simp] theorem Port.say_out (t : Port) (message value : Nat) : (t.say message value).out = t.out ++ [ctlFlit (ctlBody message value)] := rfl

/-- An SPDM message leaves by the port's flits alone. -/
theorem Port.saySpdm_rest (t : Port) (bytes : List Byte) : { t.saySpdm bytes with out := t.out } = t := rfl

/-- A reply leaves the SPDM phase. -/
@[simp] theorem Port.reply_spdm (t : Port) (r : SpdmReply) (asked : List Byte) : (t.reply r asked).spdm = t.spdm := rfl

/-- A reply leaves the keys. -/
@[simp] theorem Port.reply_keys (t : Port) (r : SpdmReply) (asked : List Byte) : (t.reply r asked).keys = t.keys := rfl

/-- A reply leaves the lock state. -/
@[simp] theorem Port.reply_st (t : Port) (r : SpdmReply) (asked : List Byte) : (t.reply r asked).st = t.st := rfl

/-- No group closes where fewer than seven bodies wait and the rest may wait on (R332). -/
theorem Port.closeFull_short (t : Port) (h : t.forming.length < 7) : t.closeFull = t := by
  unfold Port.closeFull
  cases hn : t.forming.length with
  | zero => rfl
  | succ n => rw [Port.closeGroups]; simp; omega

end Sys2Proof.Machine
end

