-- ==== Sys2Proof/Laws/Issue.lean ====
section
/-! SUPPORT. What the shared meanings can answer: each ends its step with `finish`, or is the fault of an operator without a
firing. -/

namespace Sys2Proof.Machine

variable {s u : State}

/-- A step that answers a next state has ended: its writes are made and none is left over. -/
def Ends (s : State) (o : Host.Outcome State Fault Refusal) : Prop := ∀ u, o = .next u → ∃ t, finish s t = .next u

theorem ends_finish (s t : State) : Ends s (finish s t) := fun _ h => ⟨t, h⟩

/-- An ended step keeps memory canonical and leaves no write over. -/
theorem Ends.mem {o : Host.Outcome State Fault Refusal} (e : Ends s o) (h : o = .next u) (hm : s.mem.wf = true) :
    u.mem.wf = true ∧ u.log = [] :=
  let ⟨_, ht⟩ := e u h
  finish_mem ht hm

/-! ### Operators (R19) -/

/-- An operator's meaning ends its step, whatever its plan; without a firing it faults. -/
theorem issueWith_ends (o : OpFields) (p : State → Firing → Slot → CoreCtx → Ctx → Plan) : Ends s (issueWith s o p) := by
  intro u h
  unfold issueWith at h
  split at h
  · cases h
  · split at h
    · split at h <;> exact ⟨_, h⟩
    · exact ⟨_, h⟩

/-- With its firing, slot, context and part, and no EOS beside data, an operator carries out its plan. -/
theorem issueWith_plan {o : OpFields} {p : State → Firing → Slot → CoreCtx → Ctx → Plan} {f : Firing} {sl : Slot} {y : CoreCtx} {x : Ctx}
    (hf : s.firing = some f) (hs : s.slot? f.core f.ctx f.eng f.slot = some sl) (hy : s.cctx? f.core f.ctx = some y)
    (hx : s.ctx? f.ctx = some x) (he : ((sl.declares 0 && isEos f.a) || (sl.declares 1 && isEos f.b)) = false) :
    issueWith s o p = finish s (issuePlan { s with firing := none } f sl o (p { s with firing := none } f sl y x)) := by
  unfold issueWith
  simp [hf, hs, hy, hx, he]

/-- A firing that faults at issue only consumes its tokens and asks for its section's seal (R116). -/
theorem issuePlan_fault {f : Firing} {sl : Slot} {o : OpFields} {p : Plan} {k : Nat} {x : Ctx} {y : CoreCtx}
    (hx : s.ctx? f.ctx = some x) (hy : s.cctx? f.core f.ctx = some y) (hk : p.fault = some k) : issuePlan s f sl o p = faultIssue s f k := by
  unfold issuePlan
  simp [hx, hy, hk]

/-! ### Control-core moulds -/

/-- A branch jumps or completes. -/
theorem branch_ends (taken : Bool) (o : BitVec 16) : Ends s (branch s taken o) := by
  intro u h
  unfold branch at h
  dsimp only at h
  repeat' split at h
  all_goals exact ⟨_, h⟩

/-- A load traps or completes. -/
theorem loadReg_ends (d a : Reg) (i : BitVec 14) (n : Nat) (ext : List Byte → Word) : Ends s (loadReg s d a i n ext) := by
  intro u h
  unfold loadReg at h
  dsimp only at h
  repeat' split at h
  all_goals exact ⟨_, h⟩

/-- A store traps or completes. -/
theorem storeReg_ends (r a : Reg) (i : BitVec 14) (n : Nat) : Ends s (storeReg s r a i n) := by
  intro u h
  unfold storeReg at h
  dsimp only at h
  repeat' split at h
  all_goals exact ⟨_, h⟩

/-- An atomic traps or completes. -/
theorem atomic_ends (d a : Reg) (upd : Word → Option Word) : Ends s (atomic s d a upd) := by
  intro u h
  unfold atomic at h
  dsimp only at h
  repeat' split at h
  all_goals exact ⟨_, h⟩

/-- A write of a k-register traps or completes. -/
theorem kInstr_ends (m : KMode) (a : Reg) (k : BitVec 12) : Ends s (kInstr s m a k) := by
  intro u h
  unfold kInstr at h
  dsimp only at h
  repeat' split at h
  all_goals exact ⟨_, h⟩

/-- A fence completes or waits. -/
theorem fenceWith_ends (scope : Nat) : Ends s (fenceWith scope s) := by
  intro u h
  unfold fenceWith at h
  dsimp only at h
  repeat' split at h
  all_goals exact ⟨_, h⟩

/-! ### Object commands, requests, ports and messages -/

theorem complete_ends (s : State) (c0 c : Ctl) : Ends s (complete s c0 c) := ends_finish s _
theorem completeIn_ends (s t : State) (c0 c : Ctl) : Ends s (completeIn s t c0 c) := ends_finish s _
theorem trapAt_ends (s : State) (c : Ctl) (k : Nat) (v : Word) : Ends s (trapAt s c k v) := ends_finish s _

/-- An object command traps, completes with its status word in its block, or waits. -/
theorem commandWait_ends (a b : Reg) (size : State → Ctl → Word → Nat)
    (run : State → Ctl → Nat → Word → Nat → (Nat × Nat) ⊕ (State × Option Wait)) : Ends s (commandWait a b size run s) := by
  intro u h
  unfold commandWait at h
  dsimp only at h
  repeat' split at h
  all_goals exact ⟨_, h⟩

theorem commandWith_ends (a b : Reg) (size : State → Ctl → Word → Nat) (run : State → Ctl → Nat → Word → Nat → (Nat × Nat) ⊕ State) :
    Ends s (commandWith a b size run s) := commandWait_ends a b size _

/-- A management request is served or left alone. -/
theorem requestIn_ends (mine : MgmtReq → Bool) (run : MgmtReq → State × Nat × Nat) : Ends s (requestIn s mine run) := by
  intro u h
  unfold requestIn at h
  dsimp only at h
  repeat' split at h
  all_goals exact ⟨_, h⟩

theorem requestWith_ends (mine : MgmtReq → Bool) (run : MgmtReq → (Nat × Nat) ⊕ State) : Ends s (requestWith s mine run) :=
  requestIn_ends mine _

theorem portWith_ends (cmd : Nat) (run : MgmtReq → Nat → Port → State × Nat × Nat) : Ends s (portWith s cmd run) := requestIn_ends _ _

/-- A message on a port answers or, on a port in ERROR or none, does nothing. -/
theorem spdmWith_ends (port : Nat) (m : SpdmMsg) (r : SpdmReply) (f : Port → Option Port) : Ends s (spdmWith port m s r f) := by
  intro u h
  unfold spdmWith at h
  repeat' split at h
  all_goals exact ⟨_, h⟩

/-- An injection traps, is rejected, waits or leaves. -/
theorem injectWith_ends (c : Ctl) (pred : Bool) (h0 h1 w0 w1 : Word) : Ends s (injectWith s c pred h0 h1 w0 w1) := by
  intro u h
  unfold injectWith at h
  dsimp only at h
  repeat' split at h
  all_goals exact ⟨_, h⟩

end Sys2Proof.Machine
end

