-- ==== Sys2Proof/Tests/Slice0.lean ====
section
/-! SUPPORT. Small tests: words from the spec's encodings, refused terms, single steps on small states, and for every statement a state
and operands that meet its hypotheses. -/

namespace Sys2Proof.Tests

set_option Elab.async false

open Sys2Proof Sys2Proof.Machine Sys2Proof.Claims

/-! ### Small states -/

/-- Context 0 resident on core 0, with tag fields of 8 bits each and colours 0 to 4. -/
def base : State :=
  { State.reset.withLoadedCtx with ctxs := [{ loadedCtx 0 with cols := 4, tagfmt := 0x208208, ceiling := 1000 }], cores := [{ loadedPart with ebudget := 100 }] }

/-- The context of `base`. -/
def ctx0 : Ctx := { loadedCtx 0 with cols := 4, tagfmt := 0x208208, ceiling := 1000 }

/-- Its part on core 0. -/
def part0 : CoreCtx := { loadedPart with ebudget := 100 }

/-- `base` with core 0's control core running at 0x100 with g1 to g4 holding 7, 3, a scratchpad address and an SRAM address. -/
def atCtl (f : Ctl → Ctl) : State :=
  let c : Ctl := { Ctl.reset 0 with owner := some 0, run := .running, pc := 0x100, tvec := 0x400, exec := 1 }
  base.setCtl (f ((((c.setReg 1 7).setReg 2 3).setReg 3 0x1000000).setReg 4 0x2000))

/-- The same as a privileged control core. -/
def atPriv (f : Ctl → Ctl) : State := atCtl fun c => f { c with status := 5 }

/-- Bytes placed in memory. -/
def withBytes (s : State) (a : Nat) (bs : List Byte) : State := { s with mem := s.mem.write a bs }

/-- A scalar token on port p. -/
def scalarTok (p : Nat) (w : Word) : Token := { placedToken .v p with kind := 1, w0 := w }

/-- A poison scalar on port p. -/
def poisonTok (p : Nat) : Token := { placedToken .v p with kind := 6, psn := true }

/-- The descriptor of a 1x1 dense FP64-plane tile in allocation record k at granule k. -/
def tileTok (p k : Nat) (sh : Shape) : Token :=
  { placedToken .v p with kind := 0, w0 := Desc.word { Desc.ofWords (sh.desc false) 0 with addr := 512 * k, alloc := k } }

/-- What a next state shows. -/
def shown {α : Type} (o : Host.Outcome State Fault Refusal) (g : State → α) : Option α :=
  match o with
  | .next t => some (g t)
  | _ => none

/-- General register r of core 0 after an instruction. -/
def regAfter (i : Instr) (s : State) (r : Reg) : Option Word := shown (exec i s) fun t => (t.ctl 0).reg r

/-- The pc of core 0 after an instruction. -/
def pcAfter (i : Instr) (s : State) : Option Word := shown (exec i s) fun t => (t.ctl 0).pc

/-- The trap core 0 has taken after an instruction: cause, k.epc, k.tval and pc. -/
def trapAfter (i : Instr) (s : State) : Option (Word × Word × Word × Word) :=
  shown (exec i s) fun t => ((t.ctl 0).cause, (t.ctl 0).epc, (t.ctl 0).tval, (t.ctl 0).pc)

/-- A tensor of 64 by 64 FP64 elements, row-major at 0x10000 of HBM stack 0, for every context and with every permission. -/
def tensor : ObjRec :=
  { stride := [1, 64, 0, 0, 0, 0], shape := [64, 64, 0, 0, 0, 0], shadow := 0x40000, base := 0x10000, owner := 0, ctx := 255, igen := 1, gen := 1, kind := 0,
    gsz := 0, had := false, sat := false, rm := 0, perm := 15, layout := 0, rank := 2, fmt := 0, ppend := false, st := 1 }

/-- The same of INT32. -/
def ints : ObjRec := { tensor with fmt := 6, base := 0x20000 }

/-- 4,096 bytes at 0x30000. -/
def octets : ObjRec := { tensor with fmt := 9, rank := 1, shape := [4096, 0, 0, 0, 0, 0], stride := [1, 0, 0, 0, 0, 0], base := 0x30000 }

/-- A ring of 4 slots of 512 bytes at 0x50000. -/
def ring : ObjRec := { tensor with kind := 1, shape := [512, 4, 0, 0, 0, 0], base := 0x50000 }

/-- A barrier of 2 for group 1, in the first quad bank. -/
def barrier : ObjRec := { tensor with kind := 2, ctx := 0, shape := [2, 1, 0, 0, 0, 0], base := 0x800300000000 }

/-- An array of 4 counters in the same bank. -/
def counters : ObjRec := { tensor with kind := 3, shape := [4, 1, 0, 0, 0, 0], base := 0x800300000040 }

/-- A sparse tiled object of 64 by 128 FP64 elements: two blocks, with its map at 0x60000. -/
def sparse : ObjRec := { tensor with st := 2, layout := 1, stride := [0, 0, 0, 0, 0, 0], shape := [128, 64, 0, 0, 0, 0], base := 0x60000 }

/-- The objects of the tests, by handle. -/
def table : List (Nat × ObjRec) := [(5, tensor), (6, ring), (7, barrier), (8, counters), (9, octets), (10, sparse), (11, ints)]

/-- A state with those objects and group 1 of core 0. -/
def withObjs (s : State) : State :=
  { s with msys := { s.msys with objs := table, objCount := 64 }, ctxs := s.ctxs.map fun x => { x with groups := [(1, 1)] } }

/-- The value of an FP64 pattern. -/
def fp (w : Word) : Val := (decodeFp64 w).1

/-- A tile in granule 8 * k of core 0's scratchpad, in allocation record k. -/
def putTile (s : State) (k : Nat) (t : Tile) : State :=
  let s := withBytes s (scratchKey 0 (4096 * k)) t.bytes
  { s with flow := { s.flow with allocs := s.flow.allocs ++ [{ core := 0, idx := k, base := 8 * k, len := 8, refs := 1, ctx := 0 }] } }

/-- The token of that tile on port p. -/
def tokOf (p k : Nat) (t : Tile) : Token :=
  { placedToken .v p with kind := 0, w0 := Desc.word { Desc.ofWords (t.desc false) 0 with addr := 4096 * k, alloc := k } }

/-- A slot with an operator's word and literals. -/
def slotOf (i : Instr) (lit0 lit1 : Word) : Slot :=
  let w := (encode i).getD 0
  { core := 0, ctx := 0, eng := legalEngine w, slot := 0, word := w, lit0 := lit0, lit1 := lit1, acc := 0, ecls := 0, rm := 0, brk := false, edge := 0,
    fen := false, fcol := 0, sect := 0 }

/-- Its firing with given tokens. -/
def firingOf (i : Instr) (a b p : Option Token) : Firing :=
  let w := (encode i).getD 0
  { id := 0, core := 0, ctx := 0, eng := legalEngine w, slot := 0, sect := 0, op := wordOp w, col := 0, tag := tokTag (slotOf i 0 0) a b p, a := a, b := b, p := p,
    got := none, outCol := 0, outTag := 0, freeCol := none, outs := [], release := [], phase := .issuing, start := 0, due := 0, genHeld := false,
    strm := 0, inOrder := false, order := none, job := .none, prog := 0, sealed := false, eos := false, psum := none, busy := 0, occ := 0, born := 0, mseq := 0, mck := 0 }

/-- A state in which that firing is being issued. -/
def issuing (s : State) (i : Instr) (lit0 lit1 : Word) (a b p : Option Token) : State :=
  { s with flow := { s.flow with slots := [slotOf i lit0 lit1] }, firing := some (firingOf i a b p), nextId := 1 }

/-- What issuing gives: the results as colours, tags and values. -/
def results (o : Host.Outcome State Fault Refusal) : Option (List (List Nat × OutVal)) :=
  shown o fun t => t.flow.firings.flatMap fun f => f.outs.map fun r => (r.codes, r.val)

/-- The plan of an operator for its firing: none where it faults. A placed tile has undefined bytes between its planes (log 7), so the tests look
at tiles before they are placed. -/
def planned (s : State) (i : Instr) (lit0 lit1 : Word) (a b p : Option Token) : Option Plan :=
  ((planOf i).map fun q => q s (firingOf i a b p) (slotOf i lit0 lit1) part0 ctx0).bind fun q => if q.fault.isNone then some q else none

/-- The FP64 patterns of the tiles that it sends. -/
def sentTiles (s : State) (i : Instr) (lit0 lit1 : Word) (a b p : Option Token) : Option (List (List Word)) :=
  (planned s i lit0 lit1 a b p).map fun q => (q.effect s 0 0).outs.map fun r => match r.val with
    | .newTile d bs _ => (readTile (Desc.ofWords d 0) bs).vals.map encodeFp64
    | _ => []

/-- The elements a V operator makes of tiles A and B (or of A alone). -/
def vTiles (i : Instr) (lit0 lit1 : Word) (a : Tile) (b : Option Tile) : Option (List (List Word)) :=
  let s := putTile base 1 a
  match b with
  | some b => sentTiles (putTile s 2 b) i lit0 lit1 (some (tokOf 0 1 a)) (some (tokOf 1 2 b)) none
  | none => sentTiles s i lit0 lit1 (some (tokOf 0 1 a)) none none

/-- A dense XF tile of r rows of FP64 patterns. -/
def xf (r : Nat) (ws : List Word) : Tile := xfTile r (ws.length / r) (ws.map fp)

/-- Operator fields: operands a, b; a with zero; a with lit1; result to entry 1. -/
def ab : OpFields := opf 0 1 1 0 0
/-- Operand a alone. -/
def a0 : OpFields := opf 0 5 1 0 0
/-- Operand a and literal 1. -/
def al : OpFields := opf 0 3 1 0 0
/-- Operand a with an object in literal 0. -/
def ao : OpFields := opf 0 2 1 0 0
/-- Operand a to entries 1 and 2. -/
def a2 : OpFields := opf 0 5 1 2 0

/-! ### Every word form, by its row of the spec's table: registers 8, 16, 24, immediate 36, k.fpmode, width 4; operators a, b -> e3, e4, INC1 -/

theorem test_control_words_1 :
    decodeControl 0x0110C000 = some (.add 8 16 24)
    ∧ decodeControl 0x0110C001 = some (.sub 8 16 24)
    ∧ decodeControl 0x0110C002 = some (.mul 8 16 24)
    ∧ decodeControl 0x0110C003 = some (.mulh 8 16 24)
    ∧ decodeControl 0x0110C004 = some (.div 8 16 24)
    ∧ decodeControl 0x0110C005 = some (.rem 8 16 24)
    ∧ decodeControl 0x0110C006 = some (.min 8 16 24)
    ∧ decodeControl 0x0110C007 = some (.max 8 16 24)
    ∧ decodeControl 0x0110C008 = some (.and 8 16 24)
    ∧ decodeControl 0x0110C009 = some (.or 8 16 24)
    ∧ decodeControl 0x0110C00A = some (.xor 8 16 24)
    ∧ decodeControl 0x0110C00B = some (.shl 8 16 24)
    ∧ decodeControl 0x0110C00C = some (.shr 8 16 24)
    ∧ decodeControl 0x0110C00D = some (.sra 8 16 24)
    ∧ decodeControl 0x0110C00E = some (.slt 8 16 24) := by
  decide +kernel

theorem test_control_words_2 :
    decodeControl 0x0110C00F = some (.sltu 8 16 24)
    ∧ decodeControl 0x01100010 = some (.clz 8 16)
    ∧ decodeControl 0x01100011 = some (.popc 8 16)
    ∧ decodeControl 0x01100412 = some (.mov 8 16 .w4)
    ∧ decodeControl 0x09100024 = some (.addImm 8 16 36)
    ∧ decodeControl 0x0D100024 = some (.subImm 8 16 36)
    ∧ decodeControl 0x11100024 = some (.mulImm 8 16 36)
    ∧ decodeControl 0x15100024 = some (.mulhImm 8 16 36)
    ∧ decodeControl 0x19100024 = some (.divImm 8 16 36)
    ∧ decodeControl 0x1D100024 = some (.remImm 8 16 36)
    ∧ decodeControl 0x21100024 = some (.minImm 8 16 36)
    ∧ decodeControl 0x25100024 = some (.maxImm 8 16 36)
    ∧ decodeControl 0x29100024 = some (.andImm 8 16 36)
    ∧ decodeControl 0x2D100024 = some (.orImm 8 16 36)
    ∧ decodeControl 0x31100024 = some (.xorImm 8 16 36) := by
  decide +kernel

theorem test_control_words_3 :
    decodeControl 0x35100024 = some (.shlImm 8 16 36)
    ∧ decodeControl 0x39100024 = some (.shrImm 8 16 36)
    ∧ decodeControl 0x3D100024 = some (.sraImm 8 16 36)
    ∧ decodeControl 0x41100024 = some (.sltImm 8 16 36)
    ∧ decodeControl 0x45100024 = some (.sltuImm 8 16 36)
    ∧ decodeControl 0x49000024 = some (.lui 8 36)
    ∧ decodeControl 0x4D000024 = some (.adpc 8 36)
    ∧ decodeControl 0x51000024 = some (.jal 8 36)
    ∧ decodeControl 0x55100024 = some (.jalr 8 16 36)
    ∧ decodeControl 0x62180024 = some (.beq 16 24 36)
    ∧ decodeControl 0x66180024 = some (.bne 16 24 36)
    ∧ decodeControl 0x6A180024 = some (.blt 16 24 36)
    ∧ decodeControl 0x6E180024 = some (.bge 16 24 36)
    ∧ decodeControl 0x72180024 = some (.bltu 16 24 36)
    ∧ decodeControl 0x76180024 = some (.bgeu 16 24 36) := by
  decide +kernel

theorem test_control_words_4 :
    decodeControl 0x7A000024 = some (.loop 16 36)
    ∧ decodeControl 0x7C000000 = some .loopx
    ∧ decodeControl 0x81100024 = some (.ldb 8 16 36)
    ∧ decodeControl 0x85100024 = some (.ldbu 8 16 36)
    ∧ decodeControl 0x89100024 = some (.ldh 8 16 36)
    ∧ decodeControl 0x8D100024 = some (.ldhu 8 16 36)
    ∧ decodeControl 0x91100024 = some (.ldw 8 16 36)
    ∧ decodeControl 0x95100024 = some (.ldd 8 16 36)
    ∧ decodeControl 0x99108024 = some (.ldv 8 16 .w4 36)
    ∧ decodeControl 0xA1100024 = some (.stb 8 16 36)
    ∧ decodeControl 0xA5100024 = some (.sth 8 16 36)
    ∧ decodeControl 0xA9100024 = some (.stw 8 16 36)
    ∧ decodeControl 0xAD100024 = some (.std 8 16 36)
    ∧ decodeControl 0xB1108024 = some (.stv 8 16 .w4 36)
    ∧ decodeControl 0x0510C000 = some (.amadd 8 16 24) := by
  decide +kernel

theorem test_control_words_5 :
    decodeControl 0x0510C001 = some (.amswp 8 16 24)
    ∧ decodeControl 0x0510C002 = some (.amcas 8 16 24)
    ∧ decodeControl 0xC1000300 = some (.krd 8 0x030)
    ∧ decodeControl 0xC0100301 = some (.kwr 16 0x030)
    ∧ decodeControl 0xC0100302 = some (.kset 16 0x030)
    ∧ decodeControl 0xC0100303 = some (.kclr 16 0x030)
    ∧ decodeControl 0xC4000000 = some .fenceEngine
    ∧ decodeControl 0xC4000001 = some .fenceCore
    ∧ decodeControl 0xC4000002 = some .fenceQuad
    ∧ decodeControl 0xC4000003 = some .fenceCluster
    ∧ decodeControl 0xC4000004 = some .fenceDie
    ∧ decodeControl 0xC4000005 = some .fenceDevice
    ∧ decodeControl 0xC4000006 = some .fenceSystem
    ∧ decodeControl 0xC9100000 = some (.gload 8 16)
    ∧ decodeControl 0xC910C001 = some (.dset 8 16 24) := by
  decide +kernel

theorem test_control_words_6 :
    decodeControl 0xC800C402 = some (.inj 24)
    ∧ decodeControl 0xC810C203 = some (.injp 16 24)
    ∧ decodeControl 0xC9000404 = some (.trecv 8)
    ∧ decodeControl 0xCC000000 = some .ecall
    ∧ decodeControl 0xCC000001 = some .ebreak
    ∧ decodeControl 0xCC000002 = some .eret
    ∧ decodeControl 0xCC000003 = some .wfe
    ∧ decodeControl 0xCC000004 = some .sev
    ∧ decodeControl 0xD010C000 = some (.orset 16 24)
    ∧ decodeControl 0xD010C001 = some (.orinv 16 24)
    ∧ decodeControl 0xD010C002 = some (.ormov 16 24)
    ∧ decodeControl 0xD010C003 = some (.orres 16 24)
    ∧ decodeControl 0xD5100000 = some (.lnch 8 16) := by
  decide +kernel

theorem test_operator_words_1 :
    decodeOperator 0x01041842 = some (.mma (opf 0 1 3 4 2))
    ∧ decodeOperator 0x02041842 = some (.mmaz (opf 0 1 3 4 2))
    ∧ decodeOperator 0x03041842 = some (.mmat (opf 0 1 3 4 2))
    ∧ decodeOperator 0x04041842 = some (.mmatz (opf 0 1 3 4 2))
    ∧ decodeOperator 0x05041842 = some (.cmma (opf 0 1 3 4 2))
    ∧ decodeOperator 0x06041842 = some (.cmmaz (opf 0 1 3 4 2))
    ∧ decodeOperator 0x07041842 = some (.qmma (opf 0 1 3 4 2))
    ∧ decodeOperator 0x08041842 = some (.qmmaz (opf 0 1 3 4 2))
    ∧ decodeOperator 0x09041842 = some (.accld (opf 0 1 3 4 2))
    ∧ decodeOperator 0x0A041842 = some (.accst (opf 0 1 3 4 2))
    ∧ decodeOperator 0x0B041842 = some (.accz (opf 0 1 3 4 2))
    ∧ decodeOperator 0x0C041842 = some (.accscl (opf 0 1 3 4 2))
    ∧ decodeOperator 0x0D041842 = some (.mcont (opf 0 1 3 4 2))
    ∧ decodeOperator 0x20041842 = some (.tld (opf 0 1 3 4 2))
    ∧ decodeOperator 0x21041842 = some (.tst (opf 0 1 3 4 2)) := by
  decide +kernel

theorem test_operator_words_2 :
    decodeOperator 0x22041842 = some (.sld (opf 0 1 3 4 2))
    ∧ decodeOperator 0x23041842 = some (.sst (opf 0 1 3 4 2))
    ∧ decodeOperator 0x24041842 = some (.tldg (opf 0 1 3 4 2))
    ∧ decodeOperator 0x25041842 = some (.tsts (opf 0 1 3 4 2))
    ∧ decodeOperator 0x26041842 = some (.atad (opf 0 1 3 4 2))
    ∧ decodeOperator 0x27041842 = some (.atmn (opf 0 1 3 4 2))
    ∧ decodeOperator 0x28041842 = some (.atmx (opf 0 1 3 4 2))
    ∧ decodeOperator 0x29041842 = some (.atxc (opf 0 1 3 4 2))
    ∧ decodeOperator 0x2A041842 = some (.atcs (opf 0 1 3 4 2))
    ∧ decodeOperator 0x2B041842 = some (.rpush (opf 0 1 3 4 2))
    ∧ decodeOperator 0x2C041842 = some (.rpop (opf 0 1 3 4 2))
    ∧ decodeOperator 0x2D041842 = some (.fncEngine (opf 0 1 3 4 2))
    ∧ decodeOperator 0x2E041842 = some (.fncCore (opf 0 1 3 4 2))
    ∧ decodeOperator 0x2F041842 = some (.fncQuad (opf 0 1 3 4 2))
    ∧ decodeOperator 0x30041842 = some (.fncCluster (opf 0 1 3 4 2)) := by
  decide +kernel

theorem test_operator_words_3 :
    decodeOperator 0x31041842 = some (.fncDie (opf 0 1 3 4 2))
    ∧ decodeOperator 0x32041842 = some (.fncDevice (opf 0 1 3 4 2))
    ∧ decodeOperator 0x33041842 = some (.fncSystem (opf 0 1 3 4 2))
    ∧ decodeOperator 0x34041842 = some (.stadv (opf 0 1 3 4 2))
    ∧ decodeOperator 0x35041842 = some (.cnadd (opf 0 1 3 4 2))
    ∧ decodeOperator 0x36041842 = some (.cnwt (opf 0 1 3 4 2))
    ∧ decodeOperator 0x37041842 = some (.cnrd (opf 0 1 3 4 2))
    ∧ decodeOperator 0x38041842 = some (.shop (opf 0 1 3 4 2))
    ∧ decodeOperator 0x39041842 = some (.publ (opf 0 1 3 4 2))
    ∧ decodeOperator 0x3A041842 = some (.nmiv (opf 0 1 3 4 2))
    ∧ decodeOperator 0x3B041842 = some (.mcst (opf 0 1 3 4 2))
    ∧ decodeOperator 0x3C041842 = some (.cmpr (opf 0 1 3 4 2))
    ∧ decodeOperator 0x3D041842 = some (.lnchOperator (opf 0 1 3 4 2))
    ∧ decodeOperator 0x3E041842 = some (.tkrp (opf 0 1 3 4 2))
    ∧ decodeOperator 0x3F041842 = some (.tkcl (opf 0 1 3 4 2)) := by
  decide +kernel

theorem test_operator_words_4 :
    decodeOperator 0x40041842 = some (.tkq (opf 0 1 3 4 2))
    ∧ decodeOperator 0x41041842 = some (.chsv (opf 0 1 3 4 2))
    ∧ decodeOperator 0x42041842 = some (.chrs (opf 0 1 3 4 2))
    ∧ decodeOperator 0x43041842 = some (.chrp (opf 0 1 3 4 2))
    ∧ decodeOperator 0x48041842 = some (.vadd (opf 0 1 3 4 2))
    ∧ decodeOperator 0x49041842 = some (.vsub (opf 0 1 3 4 2))
    ∧ decodeOperator 0x4A041842 = some (.vmul (opf 0 1 3 4 2))
    ∧ decodeOperator 0x4B041842 = some (.vfma (opf 0 1 3 4 2))
    ∧ decodeOperator 0x4C041842 = some (.vfms (opf 0 1 3 4 2))
    ∧ decodeOperator 0x4D041842 = some (.vdiv (opf 0 1 3 4 2))
    ∧ decodeOperator 0x4E041842 = some (.vsqrt (opf 0 1 3 4 2))
    ∧ decodeOperator 0x4F041842 = some (.vrcp (opf 0 1 3 4 2))
    ∧ decodeOperator 0x50041842 = some (.vrsq (opf 0 1 3 4 2))
    ∧ decodeOperator 0x51041842 = some (.vexp (opf 0 1 3 4 2))
    ∧ decodeOperator 0x52041842 = some (.vexp2 (opf 0 1 3 4 2)) := by
  decide +kernel

theorem test_operator_words_5 :
    decodeOperator 0x53041842 = some (.vlog2 (opf 0 1 3 4 2))
    ∧ decodeOperator 0x54041842 = some (.vtanh (opf 0 1 3 4 2))
    ∧ decodeOperator 0x55041842 = some (.vsigm (opf 0 1 3 4 2))
    ∧ decodeOperator 0x56041842 = some (.vmax (opf 0 1 3 4 2))
    ∧ decodeOperator 0x57041842 = some (.vmin (opf 0 1 3 4 2))
    ∧ decodeOperator 0x58041842 = some (.vabs (opf 0 1 3 4 2))
    ∧ decodeOperator 0x59041842 = some (.vneg (opf 0 1 3 4 2))
    ∧ decodeOperator 0x5A041842 = some (.vcps (opf 0 1 3 4 2))
    ∧ decodeOperator 0x5B041842 = some (.vsclx (opf 0 1 3 4 2))
    ∧ decodeOperator 0x5C041842 = some (.vcvt (opf 0 1 3 4 2))
    ∧ decodeOperator 0x5D041842 = some (.vcmpEq (opf 0 1 3 4 2))
    ∧ decodeOperator 0x5E041842 = some (.vcmpNe (opf 0 1 3 4 2))
    ∧ decodeOperator 0x5F041842 = some (.vcmpLt (opf 0 1 3 4 2))
    ∧ decodeOperator 0x60041842 = some (.vcmpLe (opf 0 1 3 4 2))
    ∧ decodeOperator 0x61041842 = some (.vcmpUn (opf 0 1 3 4 2)) := by
  decide +kernel

theorem test_operator_words_6 :
    decodeOperator 0x62041842 = some (.vselm (opf 0 1 3 4 2))
    ∧ decodeOperator 0x63041842 = some (.viadd (opf 0 1 3 4 2))
    ∧ decodeOperator 0x64041842 = some (.visub (opf 0 1 3 4 2))
    ∧ decodeOperator 0x65041842 = some (.vimul (opf 0 1 3 4 2))
    ∧ decodeOperator 0x66041842 = some (.viand (opf 0 1 3 4 2))
    ∧ decodeOperator 0x67041842 = some (.vior (opf 0 1 3 4 2))
    ∧ decodeOperator 0x68041842 = some (.vixor (opf 0 1 3 4 2))
    ∧ decodeOperator 0x69041842 = some (.vishl (opf 0 1 3 4 2))
    ∧ decodeOperator 0x6A041842 = some (.vishr (opf 0 1 3 4 2))
    ∧ decodeOperator 0x6B041842 = some (.vimin (opf 0 1 3 4 2))
    ∧ decodeOperator 0x6C041842 = some (.vimax (opf 0 1 3 4 2))
    ∧ decodeOperator 0x6D041842 = some (.rsumr (opf 0 1 3 4 2))
    ∧ decodeOperator 0x6E041842 = some (.rmaxr (opf 0 1 3 4 2))
    ∧ decodeOperator 0x6F041842 = some (.rminr (opf 0 1 3 4 2))
    ∧ decodeOperator 0x70041842 = some (.rsumc (opf 0 1 3 4 2)) := by
  decide +kernel

theorem test_operator_words_7 :
    decodeOperator 0x71041842 = some (.rmaxc (opf 0 1 3 4 2))
    ∧ decodeOperator 0x72041842 = some (.topk (opf 0 1 3 4 2))
    ∧ decodeOperator 0x73041842 = some (.vexpd (opf 0 1 3 4 2))
    ∧ decodeOperator 0x74041842 = some (.vrdiv (opf 0 1 3 4 2))
    ∧ decodeOperator 0x75041842 = some (.ttrn (opf 0 1 3 4 2))
    ∧ decodeOperator 0x76041842 = some (.tbrd (opf 0 1 3 4 2))
    ∧ decodeOperator 0x77041842 = some (.tslc (opf 0 1 3 4 2))
    ∧ decodeOperator 0x78041842 = some (.tcat (opf 0 1 3 4 2))
    ∧ decodeOperator 0x79041842 = some (.tfill (opf 0 1 3 4 2))
    ∧ decodeOperator 0x7A041842 = some (.tiota (opf 0 1 3 4 2))
    ∧ decodeOperator 0x7B041842 = some (.tperm (opf 0 1 3 4 2))
    ∧ decodeOperator 0x7C041842 = some (.had (opf 0 1 3 4 2))
    ∧ decodeOperator 0x80041842 = some (.steer (opf 0 1 3 4 2))
    ∧ decodeOperator 0x81041842 = some (.select (opf 0 1 3 4 2))
    ∧ decodeOperator 0x82041842 = some (.merge (opf 0 1 3 4 2)) := by
  decide +kernel

theorem test_operator_words_8 :
    decodeOperator 0x83041842 = some (.gate (opf 0 1 3 4 2))
    ∧ decodeOperator 0x84041842 = some (.sync (opf 0 1 3 4 2))
    ∧ decodeOperator 0x85041842 = some (.cola (opf 0 1 3 4 2))
    ∧ decodeOperator 0x86041842 = some (.colf (opf 0 1 3 4 2))
    ∧ decodeOperator 0x87041842 = some (.itnx (opf 0 1 3 4 2))
    ∧ decodeOperator 0x88041842 = some (.itex (opf 0 1 3 4 2))
    ∧ decodeOperator 0x89041842 = some (.fork (opf 0 1 3 4 2))
    ∧ decodeOperator 0x8A041842 = some (.bara (opf 0 1 3 4 2))
    ∧ decodeOperator 0x8B041842 = some (.barw (opf 0 1 3 4 2))
    ∧ decodeOperator 0x8C041842 = some (.pand (opf 0 1 3 4 2))
    ∧ decodeOperator 0x8D041842 = some (.por (opf 0 1 3 4 2))
    ∧ decodeOperator 0x8E041842 = some (.pnot (opf 0 1 3 4 2))
    ∧ decodeOperator 0x8F041842 = some (.pcnst (opf 0 1 3 4 2))
    ∧ decodeOperator 0x90041842 = some (.sink (opf 0 1 3 4 2))
    ∧ decodeOperator 0x91041842 = some (.pass (opf 0 1 3 4 2)) := by
  decide +kernel

theorem test_operator_words_9 :
    decodeOperator 0xA0041842 = some (.psn (opf 0 1 3 4 2))
    ∧ decodeOperator 0xA1041842 = some (.ptst (opf 0 1 3 4 2))
    ∧ decodeOperator 0xA2041842 = some (.seal (opf 0 1 3 4 2))
    ∧ decodeOperator 0xA3041842 = some (.trapo (opf 0 1 3 4 2))
    ∧ decodeOperator 0xA4041842 = some (.dbrk (opf 0 1 3 4 2))
    ∧ decodeOperator 0xA5041842 = some (.dstp (opf 0 1 3 4 2))
    ∧ decodeOperator 0xA6041842 = some (.dhld (opf 0 1 3 4 2)) := by
  decide +kernel

/-! ### Ill-formed terms (R54 to R59, R69) -/

theorem test_ill_formed_control :
    Instr.wf (.mov 1 4 .w2) = false ∧ Instr.wf (.mov 4 6 .w4) = false ∧ Instr.wf (.ldv 4 3 .w8 0) = false ∧ Instr.wf (.stv 1 3 .w2 0) = false
    ∧ Instr.wf (.shlImm 4 4 64) = false ∧ Instr.wf (.shrImm 4 4 0xFFFF) = false ∧ Instr.wf (.sraImm 4 4 64) = false ∧ Instr.wf (.divImm 4 4 0) = false
    ∧ Instr.wf (.remImm 4 4 0) = false ∧ Instr.wf (.jalr 1 2 2) = false ∧ Instr.wf (.loop 5 0) = false ∧ Instr.wf (.loop 5 0x8000) = false
    ∧ Instr.wf (.krd 4 0x005) = false ∧ Instr.wf (.kwr 4 0x060) = false ∧ Instr.wf (.kset 4 0x010) = false ∧ Instr.wf (.kclr 4 0xFFF) = false
    ∧ Instr.wf (.inj 6) = false ∧ Instr.wf (.injp 4 5) = false ∧ Instr.wf (.trecv 2) = false := by
  decide

theorem test_ill_formed_operators :
    Instr.wf (.vadd (opf 7 1 1 0 0)) = false ∧ Instr.wf (.vadd (opf 0 7 1 0 0)) = false ∧ Instr.wf (.vadd (opf 0 4 1 0 0)) = false
    ∧ Instr.wf (.tld (opf 4 2 1 0 0)) = false ∧ Instr.wf (.mma (opf 0 1 1 0 10)) = false ∧ Instr.wf (.tfill (opf 3 2 1 0 0)) = false
    ∧ Instr.wf (.mma (opf 4 4 1 0 0)) = false ∧ Instr.wf (.pnot (opf 5 5 1 0 0)) = true ∧ Instr.wf (.accst (opf 4 0 1 0 9)) = true := by
  decide

theorem test_illegal_words :
    decodeControl 0x00000810 = none ∧ decodeControl 0x01100212 = some (.mov 8 16 .w2) ∧ decodeControl 0x00640212 = none ∧ decodeControl 0x34840040 = none
    ∧ decodeControl 0x48841234 = none ∧ decodeControl 0x7C000001 = none ∧ decodeControl 0x9C000000 = none ∧ decodeControl 0xC4000007 = none
    ∧ decodeControl 0xFFFFFFFF = none ∧ decodeOperator 0x0E040800 = none ∧ decodeOperator 0x44040800 = none ∧ decodeOperator 0x92140800 = none := by
  decide +kernel

/-! ### Arithmetic (R97, R98), with g1 = 7 and g2 = 3, and with g1 = -7 and g2 = 0 -/

/-- The value an instruction leaves in g5. -/
def five (i : Instr) (x y : Word) : Option Word := regAfter i (atCtl fun c => (c.setReg 1 x).setReg 2 y) 5

theorem test_alu_values :
    [Instr.add 5 1 2, .sub 5 1 2, .mul 5 1 2, .mulh 5 1 2, .div 5 1 2, .rem 5 1 2, .min 5 1 2, .max 5 1 2, .and 5 1 2, .or 5 1 2, .xor 5 1 2,
      .shl 5 1 2, .shr 5 1 2, .sra 5 1 2, .slt 5 1 2, .sltu 5 1 2, .clz 5 1, .popc 5 1].map (fun i => five i 7 3)
    = [10, 4, 21, 0, 2, 1, 3, 7, 3, 7, 4, 56, 0, 0, 0, 0, 61, 3].map some := by
  decide +kernel

theorem test_alu_corners :
    [Instr.add 5 1 2, .mulh 5 1 1, .div 5 1 2, .rem 5 1 2, .min 5 1 2, .max 5 1 2, .shr 5 1 1, .sra 5 1 1, .slt 5 1 2, .sltu 5 1 2, .clz 5 2, .clz 5 1,
      .popc 5 1].map (fun i => five i (-7) 0)
    = [-7, 0, -1, -7, -7, 0, 0x7F, -1, 1, 0, 64, 0, 62].map some
    ∧ five (.div 5 1 2) 0x8000000000000000 (-1) = some 0x8000000000000000 ∧ five (.rem 5 1 2) 0x8000000000000000 (-1) = some 0
    ∧ five (.shl 5 1 2) 1 64 = some 1 ∧ regAfter (.add 0 1 2) (atCtl id) 0 = some 0 := by
  decide +kernel

theorem test_alu_immediates :
    [Instr.addImm 5 1 0xFFFF, .subImm 5 1 1, .mulImm 5 1 0xFFFE, .mulhImm 5 1 0xFFFF, .divImm 5 1 0xFFFE, .remImm 5 1 0xFFFE, .minImm 5 1 0xFFFF,
      .maxImm 5 1 0xFFFF, .andImm 5 1 0xFFFE, .orImm 5 1 8, .xorImm 5 1 0xFFFF, .shlImm 5 1 63, .shrImm 5 1 1, .sraImm 5 1 1, .sltImm 5 1 0xFFFF,
      .sltuImm 5 1 0xFFFF, .lui 5 0x8000, .adpc 5 0xFFFF].map (fun i => five i 7 3)
    = [6, 6, -14, -1, -3, 1, -1, 7, 6, 15, -8, 0x8000000000000000, 3, 3, 0, 1, 0xFFFFFFFF80000000, 0xFC].map some := by
  decide +kernel

theorem test_hyps_arithmetic : (atCtl id).log = [] ∧ aluResult (.add 5 1 2) (atCtl id).running = some (5, 10) ∧ aluResult (.sub 0 1 2) (atCtl id).running = some (0, 4) := by
  decide +kernel

/-! ### Groups, branches and loops (R99, R102 to R106) -/

theorem test_mov : Instr.wf (.mov 4 0 .w4) = true ∧ [4, 5, 6, 7, 8].map (fun r => regAfter (.mov 4 0 .w4) (atCtl id) r) = [0, 7, 3, 0x1000000, 0].map some := by
  decide +kernel

theorem test_branches :
    branchTest (.bltu 1 2 0xFFFE) (atCtl id).running = some (false, 0xFFFE) ∧ branchTest (.bne 1 2 0xFFFE) (atCtl id).running = some (true, 0xFFFE)
    ∧ [Instr.beq 1 2 4, .bne 1 2 0xFFFE, .blt 1 2 4, .bge 1 2 4, .bltu 2 1 4, .bgeu 2 1 4].map (fun i => pcAfter i (atCtl id))
      = [0x104, 0xF8, 0x104, 0x110, 0x110, 0x104].map some := by
  decide +kernel

theorem test_jumps :
    pcAfter (.jal 1 0x1FFFFF) (atCtl id) = some 0xFC ∧ regAfter (.jal 1 0x1FFFFF) (atCtl id) 1 = some 0x104
    ∧ pcAfter (.jalr 4 4 0xFFFC) (atCtl id) = some 0x1FFC ∧ regAfter (.jalr 4 4 0xFFFC) (atCtl id) 4 = some 0x104
    ∧ trapAfter (.jalr 5 1 0) (atCtl id) = some (4, 0x100, 7, 0x400) ∧ regAfter (.jalr 5 1 0) (atCtl id) 5 = some 0 := by
  decide +kernel

theorem test_hyps_jumps : ((atCtl id).running.reg 4 + sext (0 : BitVec 16)).toNat % 4 = 0 ∧ ((atCtl id).running.reg 1 + sext (0 : BitVec 16)).toNat % 4 ≠ 0
    ∧ (atCtl id).running.hnd = false ∧ (atCtl id).running.reg 1 ≠ 0 ∧ (atCtl id).running.reg 0 = 0 := by
  decide +kernel

theorem test_loop :
    shown (exec (.loop 1 4) (atCtl id)) (fun t => let c := t.ctl 0; (c.lstart, c.lend, c.lcount, c.lact, c.pc)) = some (0x104, 0x110, 7, true, 0x104)
    ∧ pcAfter (.loop 0 4) (atCtl id) = some 0x114
    ∧ shown (exec .loopx (atCtl fun c => { c with lend := 0x100, lcount := 5, status := 0x24 })) (fun t => let c := t.ctl 0; (c.lcount, c.lact, c.lend, c.pc))
      = some (0, false, 0x100, 0x104) := by
  decide +kernel

theorem test_end_check :
    pcAfter (.add 5 1 2) (atCtl fun c => { c with lstart := 0xF0, lend := 0x100, lcount := 2, status := 0x24 }) = some 0xF0
    ∧ shown (exec (.add 5 1 2) (atCtl fun c => { c with lstart := 0xF0, lend := 0x100, lcount := 1, status := 0x24 })) (fun t => let c := t.ctl 0;
        (c.pc, c.lcount, c.lact)) = some (0x104, 0, false)
    ∧ pcAfter (.kwr 2 0x052) (atCtl fun c => { c with lstart := 0xF0, lend := 0x100, lcount := 1, status := 0x24 }) = some 0xF0 := by
  decide +kernel

/-! ### Memory of the control core (R86 to R88, R100, R101) -/

/-- Bytes F0 F1 ... at SRAM address 0x2000 of core 0. -/
def atBytes : State := withBytes (atCtl id) (coreKey 0 0x2000) ((List.range 16).map fun k => BitVec.ofNat 8 (0xF0 + k))

theorem test_loads :
    [Instr.ldb 5 4 1, .ldbu 5 4 1, .ldh 5 4 2, .ldhu 5 4 2, .ldw 5 4 4, .ldd 5 4 8].map (fun i => regAfter i atBytes 5)
    = [0xFFFFFFFFFFFFFFF1, 0xF1, 0xFFFFFFFFFFFFF3F2, 0xF3F2, 0xFFFFFFFFF7F6F5F4, 0xFFFEFDFCFBFAF9F8].map some
    ∧ [4, 5].map (fun r => regAfter (.ldv 4 4 .w2 0) atBytes r) = [0xF7F6F5F4F3F2F1F0, 0xFFFEFDFCFBFAF9F8].map some := by
  decide +kernel

theorem test_hyps_loads :
    loadOf (.ldh 5 4 2) atBytes.running = some (5, 0x2002, 2, true) ∧ (0x2002 : Word).toNat % 2 = 0 ∧ MayTouchAll atBytes.running false 0x2002 2
    ∧ MayTouchAll atBytes.running false 0x123FFF8 8 ∧ (∀ e, ¬ Marked atBytes atBytes.running 0x2002 2 e) ∧ atBytes.Inv := by
  refine ⟨by decide +kernel, by decide, by unfold MayTouchAll; decide +kernel, by unfold MayTouchAll; decide +kernel, ?_, by decide +kernel, by decide +kernel⟩
  intro e h; cases h.1

theorem test_stores :
    shown (exec (.stw 3 4 8) atBytes) (fun t => (List.range 6).map fun j => t.byteAt (coreKey 0 0x2007 + j)) = some [0xF7, 0, 0, 0, 1, 0xFC]
    ∧ shown (exec (.std 1 3 8) atBytes) (fun t => (t.byteAt (coreKey 0 0x1000008), (t.ctl 0).sbuf)) = some (0, [⟨coreKey 0 0x1000008, [7, 0, 0, 0, 0, 0, 0, 0]⟩])
    ∧ shown (exec (.stb 1 4 0) atBytes) (fun t => (t.byteAt (coreKey 0 0x2000), t.byteAt (coreKey 0 0x2001))) = some (7, 0xF1)
    ∧ shown (exec (.sth 3 4 0) atBytes) (fun t => (t.byteAt (coreKey 0 0x2000), t.byteAt (coreKey 0 0x2002))) = some (0, 0xF2)
    ∧ shown (exec (.stv 2 4 .w2 0) atBytes) (fun t => (t.byteAt (coreKey 0 0x2000), t.byteAt (coreKey 0 0x200B))) = some (3, 1) := by
  decide +kernel

theorem test_hyps_stores :
    (storeOf (.stw 3 4 8) atBytes.running).map (fun q => (q.1, q.2.1, q.2.2.1)) = some (0x2008, 4, 4) ∧ MayTouchAll atBytes.running true 0x2008 4
    ∧ MayTouchAll atBytes.running true 0x1000008 8 := by
  unfold MayTouchAll
  decide +kernel

theorem test_atomics :
    shown (exec (.amadd 5 4 1) atBytes) (fun t => ((t.ctl 0).reg 5, t.readNat (coreKey 0 0x2000) 8)) = some (0xF7F6F5F4F3F2F1F0, 0xF7F6F5F4F3F2F1F7)
    ∧ shown (exec (.amswp 5 4 1) atBytes) (fun t => ((t.ctl 0).reg 5, t.readNat (coreKey 0 0x2000) 8)) = some (0xF7F6F5F4F3F2F1F0, 7)
    ∧ shown (exec (.amcas 5 4 1) atBytes) (fun t => ((t.ctl 0).reg 5, t.readNat (coreKey 0 0x2000) 8)) = some (0xF7F6F5F4F3F2F1F0, 0xF7F6F5F4F3F2F1F0)
    ∧ shown (exec (.amcas 6 4 1) (atCtl id)) (fun t => ((t.ctl 0).reg 6, t.readNat (coreKey 0 0x2000) 8)) = some (0, 7) := by
  decide +kernel

theorem test_hyps_atomics : (atomicOf (.amadd 5 4 1) atBytes.running).map (fun q => (q.1, q.2.1)) = some (5, 0x2000) ∧ MayTouchAll atBytes.running true 0x2000 8 := by
  unfold MayTouchAll
  decide +kernel

/-- A control core whose load address is odd, unmapped or in its executable page, or meets an ECC error. -/
def atPoison : State := { atBytes with ecc := [coreKey 0 0x2003] }

theorem test_access_traps :
    trapAfter (.ldw 5 4 2) atBytes = some (4, 0x100, 0x2002, 0x400) ∧ trapAfter (.ldd 5 0 0x2000) atBytes = some (5, 0x100, 0xFFFFFFFFFFFFE000, 0x400)
    ∧ trapAfter (.std 1 0 0x100) atBytes = some (6, 0x100, 0x100, 0x400) ∧ trapAfter (.amadd 5 2 1) (atCtl fun c => c.setReg 2 0x20000) = some (6, 0x100, 0x20000, 0x400)
    ∧ trapAfter (.ldw 5 4 0) atPoison = some (7, 0x100, 0x2000, 0x400) ∧ regAfter (.ldw 5 4 0) atPoison 5 = some 0 := by
  decide +kernel

theorem test_hyps_access_traps :
    accessOf (.ldw 5 4 2) atBytes.running = some (false, 0x2002, 4, 4) ∧ accessOf (.std 1 0 0x100) atBytes.running = some (true, 0x100, 8, 8)
    ∧ MayTouchAll atBytes.running true 0x100 0 ∧ mayTouch atBytes.running true (0x100 + BitVec.ofNat 64 0) = false
    ∧ accessOf (.ldw 5 4 0) atPoison.running = some (false, 0x2000, 4, 4) ∧ storeOf (.ldw 5 4 0) atPoison.running = none
    ∧ MayTouchAll atPoison.running false 0x2000 4 ∧ Marked atPoison atPoison.running 0x2000 4 (coreKey 0 0x2003) := by
  refine ⟨by decide +kernel, by decide +kernel, by unfold MayTouchAll; decide, by decide +kernel, by decide +kernel, by decide +kernel, by unfold MayTouchAll; decide +kernel, ?_⟩
  exact ⟨by decide +kernel, by decide +kernel, by decide +kernel, by decide +kernel⟩
/-! ### Control registers and traps (R89 to R96, R107, R108, R114) -/

theorem test_krd :
    regAfter (.krd 5 0x000) (atPriv fun c => { c with rq := [scalarTok 0 1] }) 5 = some 0x105 ∧ regAfter (.krd 5 0x004) (atCtl id) 5 = some 0x400
    ∧ regAfter (.krd 5 0x020) (atCtl id) 5 = some 4 ∧ regAfter (.krd 5 0x021) (atCtl id) 5 = some 0x208208 ∧ regAfter (.krd 5 0x040) (atCtl id) 5 = some 100
    ∧ kValue (atCtl id) (atCtl id).running 0x042 = 1000 ∧ regAfter (.krd 5 0x042) (atCtl id) 5 = some 1000 ∧ Instr.wf (.krd 5 0x060) = true := by
  decide +kernel

theorem test_k_writes :
    shown (exec (.kwr 1 0x052) (atCtl id)) (fun t => (t.ctl 0).lcount) = some 7
    ∧ shown (exec (.kwr 1 0x050) (atCtl id)) (fun t => (t.ctl 0).lstart) = some 4
    ∧ shown (exec (.kset 2 0x051) (atCtl fun c => { c with lend := 0x10 })) (fun t => (t.ctl 0).lend) = some 0x10
    ∧ shown (exec (.kclr 1 0x000) (atPriv id)) (fun t => (t.ctl 0).status) = some 0
    ∧ shown (exec (.kwr 4 0x004) (atPriv id)) (fun t => (t.ctl 0).tvec) = some 0x2000
    ∧ shown (exec (.kset 1 0x000) (atPriv fun c => (c.setReg 1 0x100000020).setReg 1 0x100000020)) (fun t => (t.ctl 0).status) = some 0x25 := by
  decide +kernel

/-- What KWR, KSET and KCLR make of a bit. -/
theorem test_hyps_k_writes :
    (kWriteOf (.kwr 1 0x052)).map (fun q => (q.1, q.2.1)) = some (1, 0x052) ∧ Instr.wf (.kwr 1 0x052) = true
    ∧ IsKNew (atCtl id) (atCtl id).running 0x052 (fun rw w1c old v => if rw then v else if w1c then old && !v else old) 7 7
    ∧ ¬ kNeedsPriv (atCtl id).running 0x052 7
    ∧ IsKNew (atCtl id) (atCtl id).running 0x004 (fun rw w1c old v => if rw then v else if w1c then old && !v else old) 7 4
    ∧ kNeedsPriv (atCtl id).running 0x004 4 ∧ (atPriv id).running.priv = true ∧ (atCtl id).running.priv = false := by
  unfold IsKNew kNeedsPriv
  refine ⟨by decide, by decide, by decide +kernel, by simp, by decide +kernel, by simp, by decide +kernel, by decide +kernel⟩

theorem test_fp_registers :
    shown (exec (.kwr 2 0x030) (atCtl id)) (fun t => (t.cctx? 0 0).map (·.fpmode)) = some (some 3)
    ∧ shown (exec (.kwr 1 0x030) (atCtl id)) (fun t => (t.cctx? 0 0).map (·.fpmode)) = some (some 0)
    ∧ shown (exec (.kwr 1 0x031) { atCtl id with cores := [{ part0 with fpflags := 0x12 }] }) (fun t => (t.cctx? 0 0).map (·.fpflags)) = some (some 0x10) := by
  decide +kernel

theorem test_hyps_fp_registers :
    (atCtl id).running.owner = some 0 ∧ (atCtl id).cctx? (atCtl id).lastRun 0 = some part0
    ∧ IsKNew (atCtl id) (atCtl id).running 0x030 (fun rw w1c old v => if rw then v else if w1c then old && !v else old) 3 3 := by
  unfold IsKNew
  decide +kernel

/-- A core whose NX has been raised in this ck, with NX and DZ set. -/
def atRaised : State := { atCtl id with cores := [{ part0 with fpflags := 0x12, raised := ((atCtl id).ck, 0x10) }] }

theorem test_raised_flag_stays : shown (exec (.kwr 1 0x031) { atRaised with ctls := (atCtl fun c => c.setReg 1 0x12).ctls }) (fun t => (t.cctx? 0 0).map (·.fpflags)) = some (some 0x10) := by
  decide +kernel

theorem test_hyps_kept :
    IsKKept (atCtl id) (atCtl id).running 0x052 7 7 ∧ IsKKept (atCtl id) (atCtl id).running 0x030 3 3 ∧ IsKKept atRaised atRaised.running 0x031 0 0x10
    ∧ IsKKept { atRaised with ck := (atCtl id).ck + 1 } atRaised.running 0x031 0 0 := by
  unfold IsKKept
  decide +kernel

theorem test_privilege :
    trapAfter (.kwr 1 0x004) (withBytes (atCtl id) (coreKey 0 0x100) [0x41, 0x00, 0x01, 0xC0]) = some (3, 0x100, 0xC0010041, 0x400)
    ∧ trapAfter .eret (atCtl id) = some (3, 0x100, 0, 0x400) ∧ trapAfter (.orset 1 2) (atCtl id) = some (3, 0x100, 0, 0x400)
    ∧ shown (exec (.kwr 2 0x000) (atCtl fun c => (c.setReg 2 0x24))) (fun t => (t.ctl 0).status) = some 0x24 := by
  decide +kernel

theorem test_trap_entry :
    let d := Ctl.trap { Ctl.reset 3 with pc := 0x20, tvec := 0x400, status := 0x500000024 } true 16 0x22 9
    d.pc = 0x400 ∧ d.epc = 0x20 ∧ d.tval = 9 ∧ d.cause = 0x8000000000000010 ∧ d.status = 0x400000059 := by
  decide +kernel

theorem test_eret :
    shown (exec .eret (atPriv fun c => { c with status := 0x51, epc := 0x80 })) (fun t => ((t.ctl 0).pc, (t.ctl 0).status)) = some (0x80, 0x60)
    ∧ shown (exec .eret (atPriv fun c => { c with status := 0x1B, epc := 0x80 })) (fun t => ((t.ctl 0).pc, (t.ctl 0).status)) = some (0x80, 0x0F) := by
  decide +kernel

theorem test_ecall_ebreak :
    trapAfter .ecall (atCtl id) = some (8, 0x104, 0, 0x400) ∧ trapAfter .ebreak (atCtl id) = some (9, 0x104, 0, 0x400)
    ∧ shown (exec .ebreak { atCtl id with ctxs := [{ ctx0 with dolz := true }] }) (fun t => ((t.ctl 0).run, (t.ctl 0).pc)) = some (.stopped 7, 0x104)
    ∧ (atCtl id).debugged (atCtl id).running = false
    ∧ State.debugged { atCtl id with ctxs := [{ ctx0 with dolz := true }] } (atCtl id).running = true := by
  decide +kernel

/-- What is to be shown of a core at an instruction boundary. -/
theorem atBoundary_of {s : State} {k : Nat} (h : (s.ctl k).run = .running ∧ (s.ctl k).wait = .none ∧ ∀ q ∈ s.ctxs, q.watch.held = none) : AtBoundary s k :=
  ⟨h.1, h.2.1, fun _ _ _ hq => h.2.2 _ (List.mem_of_find?_eq_some hq)⟩

/-- What is to be shown of a core that may go on. -/
theorem mayWake_of {s : State} {k : Nat} (h : (s.ctl k).run = .running ∧ ∀ q ∈ s.ctxs, q.watch.held = none) : MayWake s k :=
  ⟨h.1, fun _ _ _ hq => h.2 _ (List.mem_of_find?_eq_some hq)⟩

theorem test_double_trap :
    shown (exec .ecall (atCtl fun c => { c with status := 0x15 })) (fun t => ((t.ctl 0).run, (t.ctx? 0).map (·.phase))) = some (.stopped 6, some .lost)
    ∧ (atCtl fun c => { c with status := 0x15 }).running.hnd = true := by
  decide +kernel

/-- A control core in a handler, unprivileged or privileged. -/
def inHandler (status : Word) (f : Ctl → Ctl) : State := atCtl fun c => f { c with status := status }

/-- An instruction or event stops core 0 with reason 6 and loses its context. -/
def doubles (i : Instr) (s : State) : Bool := decide (shown (exec i s) (fun t => ((t.ctl 0).run, (t.ctx? 0).map (·.phase))) = some (.stopped 6, some .lost))

theorem test_double_traps :
    [Instr.jalr 1 4 2, .ldw 5 4 2, .std 1 0 0x100, .eret, .kwr 1 0x004, .orset 1 2, .orinv 1 2, .ormov 1 2, .orres 1 2, .gload 5 1, .inj 8].all
        (fun i => doubles i (inHandler 0x14 id)) = true
    ∧ doubles (.ldw 5 4 0) { inHandler 0x14 id with ecc := [coreKey 0 0x2003] } = true
    ∧ doubles (.instructionFetchFault 0) (inHandler 0x15 fun c => { c with pc := 0x1000 }) = true
    ∧ doubles (.instructionFetchFault 0) { inHandler 0x15 id with ecc := [coreKey 0 0x102] } = true := by
  decide +kernel

theorem test_hyps_double_traps :
    let s := inHandler 0x14 id
    s.Inv ∧ s.running.hnd = true ∧ RaisesSync s (.jalr 1 4 2) ∧ RaisesSync s (.ldw 5 4 2) ∧ RaisesSync s (.std 1 0 0x100) ∧ RaisesSync s .eret
    ∧ RaisesSync s (.kwr 1 0x004) ∧ RaisesSync s (.orset 1 2) ∧ RaisesSync s (.orinv 1 2) ∧ RaisesSync s (.ormov 1 2) ∧ RaisesSync s (.orres 1 2)
    ∧ RaisesSync s (.gload 5 1) ∧ RaisesSync s (.inj 8) ∧ RaisesSync { s with ecc := [coreKey 0 0x2003] } (.ldw 5 4 0) := by
  refine ⟨⟨by decide +kernel, rfl⟩, by decide +kernel, .jalr _ _ _ (by decide +kernel), .access _ false 0x2002 4 4 (by decide +kernel) (.inl (by decide)),
    .access _ true 0x100 8 8 (by decide +kernel) (.inr (by unfold MayTouchAll; decide +kernel)), .eret (by decide +kernel),
    .kWrite _ 1 0x004 _ 4 (by decide +kernel) rfl (by decide) (by unfold IsKNew; decide +kernel) (by simp [kNeedsPriv]),
    .orset _ _ fun h => absurd h.priv (by decide +kernel), .orinv _ _ fun h => absurd h.priv (by decide +kernel), .ormov _ _ fun h => absurd h.priv (by decide +kernel),
    .orres _ _ _ rfl fun h => absurd h.priv (by decide +kernel), .gload _ _ fun h => absurd h.aligned (by decide +kernel),
    .inject _ false 0 0 0 0 0 6 (by decide +kernel) (by decide) (by decide +kernel) (by decide +kernel),
    .ecc _ false 0x2000 4 4 (coreKey 0 0x2003) (by decide +kernel) (by decide +kernel) ⟨by decide +kernel, by decide +kernel, by decide +kernel, by decide +kernel⟩⟩

theorem test_hyps_double_fetch :
    AtBoundary (inHandler 0x15 id) 0 ∧ inExecPage ((inHandler 0x15 fun c => { c with pc := 0x1000 }).ctl 0) 0x1000 = false
    ∧ coreKey 0 ((inHandler 0x15 id).ctl 0).pc.toNat ≤ coreKey 0 0x102 ∧ coreKey 0 0x102 < coreKey 0 ((inHandler 0x15 id).ctl 0).pc.toNat + 4
    ∧ (inHandler 0x15 id).debugged (inHandler 0x15 id).running = false
    ∧ shown (finish (inHandler 0x15 id) ((inHandler 0x15 id).breakAt (inHandler 0x15 id).running 0)) (fun t => (t.ctl 0).run) = some (.stopped 6) :=
  ⟨atBoundary_of ⟨by decide +kernel, by decide +kernel, by decide +kernel⟩, by decide +kernel, by decide +kernel, by decide +kernel, by decide +kernel, by decide +kernel⟩

/-- Causes 17 and 18 pending, and 16 too. -/
def atPend (p : Word) (w : Wait) : State := atCtl fun c => { c with status := 4 + p * 0x100000000, wait := w, seals := [(2, 8)], trapos := [77], stallDie := 5 }

theorem test_async_traps :
    trapAfter (.asyncTrapEntry 0) (atPend 7 .none) = some (0x8000000000000010, 0x100, 5, 0x400)
    ∧ trapAfter (.asyncTrapEntry 0) (atPend 6 (.trecv 4)) = some (0x8000000000000011, 0x100, 0x208, 0x400)
    ∧ trapAfter (.asyncTrapEntry 0) (atPend 4 (.launch 4 (runPlaces 0))) = some (0x8000000000000012, 0x100, 77, 0x400)
    ∧ shown (exec (.asyncTrapEntry 0) (atPend 7 .wfe)) (fun t => decide (t = atPend 7 .wfe)) = some true := by
  decide +kernel

theorem test_hyps_async_traps :
    ((atPend 6 (.trecv 4)).ctl 0).ie = true ∧ ((atPend 6 (.trecv 4)).ctl 0).run = .running ∧ ((atPend 6 (.trecv 4)).ctl 0).status.getLsbD 33 = true
    ∧ (∀ j, 16 ≤ j → j < 17 → ((atPend 6 (.trecv 4)).ctl 0).status.getLsbD (j + 16) = false)
    ∧ ((atPend 6 (.trecv 4)).ctl 0).seals.head? = some (2, 8) ∧ ((atPend 4 .none).ctl 0).trapos.head? = some 77 := by
  refine ⟨by decide +kernel, by decide +kernel, by decide +kernel, ?_, by decide +kernel, by decide +kernel⟩
  intro j h1 h2
  obtain rfl : j = 16 := by omega
  decide +kernel

theorem test_hyps_boundary :
    AtBoundary (atPend 7 .none) 0 ∧ MayWake (atPend 6 (.trecv 4)) 0 ∧ NoSyncCause (atPend 7 .none) 0
    ∧ ¬ NoSyncCause (atCtl fun c => { c with pc := 0x1000, status := 0x100000004 }) 0
    ∧ (let s := atCtl fun c => { c with pc := 0x1000, status := 0x100000004 }
       shown (exec (.asyncTrapEntry 0) s) (fun t => decide (t.ctl 0 = s.ctl 0)) = some true) :=
  ⟨atBoundary_of ⟨by decide +kernel, by decide +kernel, by decide +kernel⟩, mayWake_of ⟨by decide +kernel, by decide +kernel⟩,
    ⟨by decide +kernel, (fun _ h => nomatch h), .inr fun i _ hi h => (unset i hi (by rw [h]; rfl)).elim⟩, fun h => absurd h.page (by decide +kernel), by decide +kernel⟩
where
  /-- No comparator is set. -/
  unset : ∀ i < 4, ((atPend 7 .none).ctl 0).cmps[i]?.map (·.1) ≠ some true := by decide +kernel

theorem test_fetch_faults :
    trapAfter (.instructionFetchFault 0) (atCtl fun c => { c with pc := 0x1000 }) = some (2, 0x1000, 0x1000, 0x400)
    ∧ trapAfter (.instructionFetchFault 0) { atCtl id with ecc := [coreKey 0 0x102] } = some (1, 0x100, 0x100, 0x400)
    ∧ inExecPage (atCtl id).running 0x100 = true ∧ inExecPage (atCtl id).running 0x1000 = false := by
  decide +kernel

theorem test_events :
    shown (exec .wfe (atCtl fun c => { c with status := 0x84 })) (fun t => ((t.ctl 0).pc, (t.ctl 0).status, (t.ctl 0).wait)) = some (0x104, 4, .none)
    ∧ shown (exec .wfe (atCtl id)) (fun t => ((t.ctl 0).pc, (t.ctl 0).wait)) = some (0x100, .wfe)
    ∧ shown (exec (.wfeWake 0) (atCtl fun c => { c with wait := .wfe, status := 0x84 })) (fun t => ((t.ctl 0).pc, (t.ctl 0).status)) = some (0x104, 4)
    ∧ shown (exec .sev (atCtl id)) (fun t => ((t.ctl 0).pc, (t.ctl 0).status)) = some (0x104, 0x84) := by
  decide +kernel

/-- A buffered store to scratchpad, and a ticket's entry of core 0. -/
def atFence : State := atCtl fun c => { c with sbuf := [⟨coreKey 0 0x1000000, [9]⟩] }

/-- A Bench entry. -/
def bench0 : Bench :=
  { core := 0, idx := 0, st := 0, order := 0, owner := 1, ohandle := 5, block := 0, ticket := 0, serial := 0, wait := false, result := 0, ok := false,
    ctx := 0, ogen := 0, ticketed := false, handle := 5, op := 0x20, isRead := true, fid := 0, sect := 0, blocks := [], part := none }

theorem test_fences :
    shown (exec .fenceEngine atFence) (fun t => (t.byteAt (coreKey 0 0x1000000), (t.ctl 0).sbuf.length, (t.ctl 0).pc)) = some (0, 1, 0x104)
    ∧ [Instr.fenceCore, .fenceQuad, .fenceCluster, .fenceDie, .fenceDevice, .fenceSystem].map (fun i => shown (exec i atFence) fun t =>
        (t.byteAt (coreKey 0 0x1000000), (t.ctl 0).sbuf.length, (t.ctl 0).pc)) = List.replicate 6 (some (9, 0, 0x104))
    ∧ shown (exec .fenceSystem { atFence with msys := { atFence.msys with bench := [bench0] } }) (fun t => ((t.ctl 0).wait, (t.ctl 0).pc)) = some (.fence 6, 0x100)
    ∧ shown (exec (.fenceComplete 0) (atCtl fun c => { c with wait := .fence 6 })) (fun t => ((t.ctl 0).wait, (t.ctl 0).pc)) = some (.none, 0x104) := by
  decide +kernel

theorem test_hyps_fences : some bench0.ctx = atFence.running.owner ∧ bench0.core = atFence.lastRun ∧ bench0.st ≠ 4
    ∧ benchBefore atFence 0 bench0 := ⟨by decide +kernel, by decide +kernel, by decide +kernel, .inl (by decide +kernel)⟩

theorem test_hyps_sev : (atCtl id).running.owner = some 0 ∧ (atCtl fun c => { c with owner := none }).running.owner = none := by
  decide +kernel
/-! ### Graph blocks, tokens and object commands (R66 to R70, R109 to R113, R236 to R241) -/

/-- A block of one slot on S, PASS a -> e1, and its entry 1, at 0x2000. -/
def blockBytes (hdr : Nat) : List Byte :=
  leBytes 8 hdr ++ leBytes 8 0 ++ leBytes 4 0x91140800 ++ leBytes 12 0 ++ leBytes 32 0 ++ leBytes 8 0xC000000200000000

/-- The state with the block. -/
def atBlock (hdr : Nat) : State := withBytes (atCtl id) (coreKey 0 0x2000) (blockBytes hdr)

theorem test_gload :
    shown (exec (.gload 5 4) (atBlock 0x10200802)) (fun t => ((t.ctl 0).reg 5, (t.slot? 0 0 .s 0).map (·.word), t.dest 0 0 .s 1)) =
      some (0, some 0x91140800, 0xC000000200000000)
    ∧ regAfter (.gload 5 4) (atBlock 0x10200801) 5 = some 0 ∧ regAfter (.gload 5 4) (atBlock 0x10200803) 5 = some 0x1000
    ∧ regAfter (.gload 5 4) (atBlock 0x1010200802) 5 = some 0x1000 ∧ trapAfter (.gload 5 1) (atCtl id) = some (4, 0x100, 7, 0x400) := by
  decide +kernel

theorem test_hyps_gload :
    BlockAt (atBlock 0x10200802) (atBlock 0x10200802).running 0x2000 ∧ (atBlock 0x10200802).blockReject 0 0 ((atBlock 0x10200802).ctlBlock (atBlock 0x10200802).running 0x2000) = none
    ∧ (atBlock 0x10200802).blockReject 0 0 ((atBlock 0x10200803).ctlBlock (atBlock 0x10200803).running 0x2000) = some (1, 0)
    ∧ ((atBlock 0x10200802).ctlBlock (atBlock 0x10200802).running 0x2000).sw = false := by
  refine ⟨⟨by decide, by unfold MayTouchAll; decide +kernel, by unfold MayTouchAll; decide +kernel, by decide +kernel⟩, by decide +kernel, by decide +kernel, by decide +kernel⟩

/-- A firing of the slot that the block replaces. -/
def passFiring : Firing :=
  { id := 9, core := 0, ctx := 0, eng := .s, slot := 0, sect := 1, op := 0x91, col := 0, tag := 0, a := none, b := none, p := none, got := none,
    outCol := 0, outTag := 0, freeCol := none, outs := [], release := [], phase := .working, start := 0, due := 5, genHeld := false, strm := 0, inOrder := false,
    order := none, job := .none, prog := 0, sealed := false, eos := false, psum := none, busy := 5, occ := 5, born := 0, mseq := 0, mck := 0 }

/-- The loaded slot of section 1, with section 0 to switch to. -/
def passSlot : Slot :=
  { core := 0, ctx := 0, eng := .s, slot := 0, word := 0x91140800, lit0 := 0, lit1 := 0, acc := 0, ecls := 0, rm := 0, brk := false, edge := 0, fen := false,
    fcol := 0, sect := 1 }

/-- A switching block of section 0 over the slot of the active section 1, with its firing in progress or not. -/
def atSwitch (busy : Bool) (w : Wait) : State :=
  let s := atBlock 0x810200802
  { s with
    flow := { s.flow with slots := [passSlot], firings := if busy then [passFiring] else [] }
    ctls := s.ctls.map fun c => { c with wait := w }
    ctxs := [{ ctx0 with sects := ctx0.sects ++ ctx0.sects.map fun q => { q with id := 1 } }]
    cores := [{ part0 with sects := [{ sect := 0, count := 0, spent := false }, { sect := 1, count := 0, spent := false }] }] }

theorem test_gload_switch :
    shown (exec (.gload 5 4) (atSwitch true .none)) (fun t => (t.ctl 0).wait) = some (.gloadSwitch 5 0x2000)
    ∧ shown (exec (.gloadSwitchWrite 0) (atSwitch false (.gloadSwitch 5 0x2000))) (fun t => ((t.ctl 0).pc, (t.slot? 0 0 .s 0).map (·.sect),
        (t.cctx? 0 0).map fun y => y.sects.map (·.spent))) = some (0x104, some 0, some [false, true]) := by
  decide +kernel

theorem test_hyps_gload_switch :
    let s := atSwitch true .none
    let b := s.ctlBlock s.running 0x2000
    s.blockReject 0 0 b = none ∧ b.sw = true ∧ s.inProgress 0 0 (s.switched 0 0 b) = true ∧ BlockAt s s.running 0x2000
    ∧ (let t := atSwitch false (.gloadSwitch 5 0x2000)
       t.runs 0 = true ∧ t.inProgress 0 0 (t.switched 0 0 (t.ctlBlock (t.ctl 0) (BitVec.ofNat 64 0x2000))) = false
       ∧ t.switched 0 0 (t.ctlBlock (t.ctl 0) (BitVec.ofNat 64 0x2000)) = [1]) := by
  refine ⟨by decide +kernel, by decide +kernel, by decide +kernel, ⟨by decide, by unfold MayTouchAll; decide +kernel, by unfold MayTouchAll; decide +kernel, by decide +kernel⟩,
    by decide +kernel⟩

/-- A switching GLOAD that waits in a handler, whose block has since met an ECC error. -/
def atLostBlock : State :=
  let s := atSwitch false (.gloadSwitch 5 0x2000)
  { s with ctls := s.ctls.map fun c => { c with status := 0x14 }, ecc := [coreKey 0 0x2010] }

theorem test_hyps_gload_double_trap :
    MayWake atLostBlock 0 ∧ (atLostBlock.ctl 0).hnd = true ∧ ¬ BlockAt atLostBlock (atLostBlock.ctl 0) 0x2000
    ∧ atLostBlock.inProgress 0 0 (atLostBlock.switched 0 0 (atLostBlock.ctlBlock (atLostBlock.ctl 0) 0x2000)) = false
    ∧ doubles (.gloadSwitchWrite 0) atLostBlock = true :=
  ⟨mayWake_of ⟨by decide +kernel, by decide +kernel⟩, by decide +kernel, fun h => absurd h.clean (by decide +kernel), by decide +kernel, by decide +kernel⟩

theorem test_hyps_gload_switch_blocks :
    let t := atSwitch false (.gloadSwitch 5 0x2000)
    let u := { t with boot := t.boot, mem := (atBlock 0x810200803).mem }
    t.blockReject 0 0 (t.ctlBlock (t.ctl 0) (BitVec.ofNat 64 0x2000)) = none ∧ u.blockReject 0 0 (u.ctlBlock (u.ctl 0) (BitVec.ofNat 64 0x2000)) = some (1, 0)
    ∧ shown (exec (.gloadSwitchWrite 0) u) (fun v => ((v.ctl 0).reg 5, v.flow.slots.length)) = some (0x1000, 1) := by
  decide +kernel

theorem test_dset :
    let s (sel v : Word) : State := atCtl fun c => (c.setReg 1 sel).setReg 2 v
    shown (exec (.dset 5 1 2) (s 0x302 0xC000000200000000)) (fun t => ((t.ctl 0).reg 5, t.dest 0 0 .s 3)) = some (0, 0xC000000200000000)
    ∧ regAfter (.dset 5 1 2) (s 0x002 0xC000000200000000) 5 = some 0x9000 ∧ regAfter (.dset 5 1 2) (s 0x303 0xC000000200000000) 5 = some 0x9000
    ∧ regAfter (.dset 5 1 2) (s 0x7F02 0xC000000200000000) 5 = some 0x9000 ∧ regAfter (.dset 5 1 2) (s 0x302 0x4000000200000000) 5 = some 0x7003
    ∧ entryOk 0xC000000200000000 = true ∧ entryOk 0x4000000200000000 = false ∧ entryOk 0xC000000200C00000 = false := by
  decide +kernel

/-- g8 to g11 hold a data-scalar trigger for S slot 0 port a on c000, with payload 42; g14 and g15 a predicate's header. -/
def atInject (h0 : Word) (w : Wait) : State :=
  atCtl fun c => { ((((c.setReg 8 h0).setReg 9 0).setReg 10 42).setReg 14 0x2000200400) with wait := w, seq := 0x10005 }

/-- The token of that trigger. -/
def sentTok : Token := { placedToken .s 0 with seq := 5, w0 := 42 }

/-- A token of its channel waits at the ingress. -/
def blocked (s : State) : State := { s with flow := { s.flow with ingress := [s.injTok 0 sentTok] } }

theorem test_inject :
    shown (exec (.inj 8) (atInject 0x1000000400 .none)) (fun t => (t.flow.net.map (·.tok), (t.ctl 0).seq, (t.ctl 0).pc)) = some ([sentTok], 0x10006, 0x104)
    ∧ shown (exec (.injp 1 14) (atInject 0 .none)) (fun t => t.flow.net.map fun q => (q.tok.kind, q.tok.port, q.tok.w0)) = some [(2, 2, 1)]
    ∧ shown (exec (.inj 8) (blocked (atInject 0x1000000400 .none))) (fun t => (t.ctl 0).wait) = some (.inject sentTok)
    ∧ shown (exec (.injAccept 0) (atInject 0x1000000400 (.inject sentTok))) (fun t => (t.flow.net.map (·.tok), (t.ctl 0).seq)) = some ([sentTok], 0x10006)
    ∧ trapAfter (.inj 8) (atInject 0x1000000401 .none) = some (11, 0x100, 1, 0x400) ∧ trapAfter (.inj 8) (atInject 0x2000000400 .none) = some (11, 0x100, 3, 0x400)
    ∧ trapAfter (.injp 1 8) (atInject 0x1000000400 .none) = some (11, 0x100, 3, 0x400) ∧ trapAfter (.inj 8) (atInject 0x801000000400 .none) = some (11, 0x100, 4, 0x400) := by
  decide +kernel

theorem test_hyps_inject :
    let s := atInject 0x1000000400 .none
    injectedOf (.inj 8) s.running = some (false, 0x1000000400, 0, 42, 0) ∧ injectReason s 0 0 false 0x1000000400 0 42 0 = none
    ∧ injectedToken 0 s.running.seq 0x1000000400 0 42 0 = sentTok ∧ s.netTakes 0 sentTok = true ∧ (blocked s).netTakes 0 sentTok = false
    ∧ injectReason s 0 0 false 0x1000000401 0 42 0 = some 1 ∧ injectReason s 0 0 true 0x2000200400 0 1 0 = none := by
  decide +kernel

/-- A core whose receive queue holds a scalar and a predicate. -/
def atQueue (w : Wait) : State :=
  atCtl fun c => { c with wait := w, rq := [{ scalarTok 0 42 with eng := .c, seq := 9, tag := 3 }, { scalarTok 0 1 with eng := .c }], lastTile := some 1 }

theorem test_trecv :
    [8, 9, 10, 11, 12].map (fun r => regAfter (.trecv 8) (atQueue .none) r) = [0x0009001000000600, 3, 42, 0, 0].map some
    ∧ shown (exec (.trecv 8) (atQueue .none)) (fun t => ((t.ctl 0).rq.length, (t.ctl 0).lastTile, (t.ctl 0).pc)) = some (1, none, 0x104)
    ∧ shown (exec (.trecv 8) (atCtl id)) (fun t => ((t.ctl 0).wait, (t.ctl 0).pc)) = some (.trecv 8, 0x100)
    ∧ regAfter (.trecvReturn 0) (atQueue (.trecv 8)) 10 = some 42 := by
  decide +kernel

/-- g1 holds a handle and g2 a command block at 0x2040 with given words at offsets 8, 16, 24 and 64. -/
def atCommand (h : Word) (counter arg n : Nat) (record : List Byte) : State :=
  withBytes (withObjs (atPriv fun c => (c.setReg 1 h).setReg 2 0x2040)) (coreKey 0 0x2048) (leBytes 8 counter ++ leBytes 8 arg ++ leBytes 40 n ++ record)

/-- The 128 bytes of a row-major FP64 tensor of 8 elements at 0x100000, read and write, resident (R199). -/
def recordBytes : List Byte :=
  leBytes 8 (0x6000 + 0x100 + 1) ++ leBytes 8 255 ++ leBytes 8 0x100000 ++ leBytes 8 0 ++ leBytes 24 8 ++ leBytes 72 1

theorem test_object_commands :
    shown (exec (.orset 1 2) (atCommand 20 0 0 0 recordBytes)) (fun t => (t.readNat (coreKey 0 0x2040) 8, (t.obj? 20).map fun r => (r.st, r.gen, r.igen, r.base)))
      = some (0, some (1, 1, 1, 0x100000))
    ∧ shown (exec (.orinv 1 2) (atCommand 5 0 0 0 [])) (fun t => (t.readNat (coreKey 0 0x2040) 8, t.msys.hub.map fun q => (q.handle, q.op))) = some (0, [(5, .orinv)])
    ∧ shown (exec (.ormov 1 2) (atCommand 5 0 0x200000 0 [])) (fun t => t.msys.hub.map fun q => q.op) = some [.ormov 0x200000]
    ∧ shown (exec (.orset 1 2) (atCommand 64 0 0 0 recordBytes)) (fun t => t.readNat (coreKey 0 0x2040) 8) = some 0x1000
    ∧ shown (exec (.orinv 1 2) (atCommand 20 0 0 0 [])) (fun t => t.readNat (coreKey 0 0x2040) 8) = some 0x4000
    ∧ shown (exec (.orres 1 2) (atCommand 10 0 0 2 (leBytes 8 0x4000000000100000 ++ leBytes 8 0))) (fun t =>
        (t.readNat (coreKey 0 0x2040) 8, t.readNat 0x60000 8, t.readNat 0x60008 8)) = some (0, 0x4000000000100000, 0) := by
  decide +kernel

theorem test_hyps_object_commands :
    let s := atCommand 5 0 0x200000 0 []
    let t := atCommand 20 0 0 0 recordBytes
    let w := BitVec.ofNat 1024 (leNat (t.ctlRead t.running (0x2040 + 64) 128))
    CommandAt s 0x2040 64 ∧ HandleOk s 5 ∧ s.counterWordOk 0 (counterAt s 0x2040) = true ∧ (s.projected 5).st = 1 ∧ (s.projected 5).owner = s.devId
    ∧ leNat (s.ctlRead s.running (0x2040 + 16) 8) = 0x200000 ∧ placeable 0x200000 (s.projected 5).footprint = true
    ∧ overlap 0x200000 (s.projected 5).footprint 0x10000 (s.projected 5).footprint = false
    ∧ CommandAt t 0x2040 192 ∧ CommandAt t 0x2040 576 ∧ HandleOk t 20 ∧ recordFaults t.devId w = [] ∧ barrierFaults 0 [] (ObjRec.ofBits w) = []
    ∧ ((t.obj? 20).map (·.st)).getD 0 = 0 ∧ t.msys.hub = [] ∧ t.msys.relocs = [] := by
  refine ⟨⟨by decide +kernel, by decide, by unfold MayTouchAll; decide +kernel, by unfold MayTouchAll; decide +kernel, by decide +kernel⟩,
    by unfold HandleOk; decide +kernel, by decide +kernel, by decide +kernel, by decide +kernel, by decide +kernel, by decide +kernel, by decide +kernel,
    ⟨by decide +kernel, by decide, by unfold MayTouchAll; decide +kernel, by unfold MayTouchAll; decide +kernel, by decide +kernel⟩,
    ⟨by decide +kernel, by decide, by unfold MayTouchAll; decide +kernel, by unfold MayTouchAll; decide +kernel, by decide +kernel⟩,
    by unfold HandleOk; decide +kernel, by decide +kernel, by decide +kernel, by decide +kernel, by decide +kernel, by decide +kernel⟩

theorem test_hyps_absent_page :
    let s : State := { atCommand 40 0 0 0 [] with msys := { (atCommand 40 0 0 0 []).msys with absentPages := [1] } }
    s.running.reg 1 = 40 ∧ 40 < s.msys.objCount ∧ 40 / 32 ∈ s.msys.absentPages
    ∧ shown (exec (.orinv 1 2) s) (fun t => t.readNat (coreKey 0 0x2040) 8) = some 0x2000 := by
  decide +kernel

/-- ORRES of the two blocks of the sparse object. -/
def atResidency : State := atCommand 10 0 0 2 (leBytes 8 0x4000000000100000 ++ leBytes 8 0)

theorem test_hyps_orres_block : CommandAt atResidency 0x2040 80 :=
  ⟨by decide +kernel, by decide, by unfold MayTouchAll; decide +kernel, by unfold MayTouchAll; decide +kernel, by decide +kernel⟩

theorem test_hyps_orres :
    atResidency.projected 10 = sparse ∧ sparse.owner = atResidency.devId ∧ sparse.blocks = 2 ∧ counterAt atResidency 0x2040 = 0
    ∧ leNat (atResidency.ctlRead atResidency.running (0x2040 + 16) 8) = 0 ∧ leNat (atResidency.ctlRead atResidency.running (0x2040 + 24) 8) = 2
    ∧ leWord (atResidency.ctlRead atResidency.running (0x2040 + 64) 8) = 0x4000000000100000
    ∧ leWord (atResidency.ctlRead atResidency.running (0x2040 + 72) 8) = 0 ∧ atResidency.msys.objCount = 64 ∧ atResidency.msys.absentPages = [] := by
  decide +kernel

/-- ORRES while another core's ORRES of the object waits at its hub. -/
def atBusyHub : State :=
  { atResidency with msys := { atResidency.msys with hub := [{ handle := 10, op := .orres 1 1 [0] 4, counter := 0, ctx := 0, fid := none, performed := false, oldGen := 0, readers := [] }] } }

theorem test_orres_waits :
    atResidency.msys.hub = [] ∧ atResidency.msys.relocs = []
    ∧ shown (exec (.orres 1 2) atBusyHub) (fun t => ((t.ctl 0).wait, t.msys.hub.map (·.op))) =
      some (.orres 10 0x2040 0, [.orres 1 1 [0] 4, .orres 0 0 [0x4000000000100000, 0] 0]) := by
  decide +kernel

theorem test_hyps_orres_entries : entryRejected 0 sparse 0x4000000000100000 = false ∧ entryRejected 0 sparse 0 = false := by
  decide +kernel

/-- A launch record's first words at 0x30040, named by g1: 3 units of 64 bytes, launch id 77. -/
def atLaunch (n : Nat) (w : Wait) : State :=
  let s := withBytes (withObjs (atCtl fun c => { c.setReg 1 (9 + 0x40 * 2^24) with wait := w })) 0x30040 (leBytes 8 0x300 ++ leBytes 8 0x10000004D)
  { s with host := { s.host with ctxLaunches := List.replicate n (0, { places := runPlaces 0, parent := some 0, ended := false, partMask := 1, cap := 0, queue := none }) } }

theorem test_launch :
    shown (exec (.lnch 5 1) (atLaunch 0 .none)) (fun t => ((t.ctl 0).reg 5, t.host.ctxLaunches.map fun q => (q.1, q.2.places))) = some (0x4D00000000, [(0, runPlaces 0x30040)])
    ∧ regAfter (.lnch 5 2) (atLaunch 0 .none) 5 = some 0x1000
    ∧ shown (exec (.lnch 5 1) (atLaunch 16 .none)) (fun t => (t.ctl 0).wait) = some (.launch 5 (runPlaces 0x30040))
    ∧ shown (exec (.lnchAccept 0) (atLaunch 15 (.launch 5 (runPlaces 0x30040)))) (fun t => ((t.ctl 0).reg 5, t.host.ctxLaunches.length)) = some (0x4D00000000, 16) := by
  decide +kernel

/-- The table page of the object of the record is absent. -/
def atLostRecord : State := { atLaunch 0 .none with msys := { (atLaunch 0 .none).msys with absentPages := [0] } }

theorem test_launch_unreadable :
    (match atLostRecord.launchRecord 0 9 0x40 with | .unreadable _ => true | _ => false) = true ∧ regAfter (.lnch 5 1) atLostRecord 5 = some 0x1000 := by
  decide +kernel

theorem test_hyps_launch :
    let s := atLaunch 0 .none
    s.launchRecord 0 9 0x40 = .at (runPlaces 0x30040) ∧ s.launchRecord 0 3 0 = .rejected 1 ∧ handleOf (s.running.reg 1) = 9 ∧ (s.running.reg 1).toNat / 2^24 = 0x40
    ∧ (s.ctx? 0).isSome = true := by
  decide +kernel
/-! ### V (R136 to R158): 1.0 is 0x3FF0…, 2.0 0x4000…, 3.0 0x4008…, 4.0 0x4010…, 6.0 0x4018…, 8.0 0x4020…, 0.5 0x3FE0…, -2.0 0xC000… -/

/-- One element x and one element y. -/
def vv (i : Instr) (x y : Word) : Option (List (List Word)) := vTiles i 0 0 (xf 1 [x]) (some (xf 1 [y]))

/-- One element. -/
def v1 (i : Instr) (x : Word) : Option (List (List Word)) := vTiles i 0 0 (xf 1 [x]) none

/-- One result of one element. -/
def is1 (w : Word) : Option (List (List Word)) := some [[w]]

theorem test_v_float_pairs :
    vv (.vadd ab) 0x3FF0000000000000 0x4000000000000000 = is1 0x4008000000000000 ∧ vv (.vsub ab) 0x3FF0000000000000 0x4008000000000000 = is1 0xC000000000000000
    ∧ vv (.vmul ab) 0x4000000000000000 0x4008000000000000 = is1 0x4018000000000000 ∧ vv (.vdiv ab) 0x4018000000000000 0x4000000000000000 = is1 0x4008000000000000
    ∧ vv (.vmax ab) 0x3FF0000000000000 0xC000000000000000 = is1 0x3FF0000000000000 ∧ vv (.vmin ab) 0x3FF0000000000000 0xC000000000000000 = is1 0xC000000000000000
    ∧ vv (.vcps ab) 0x4008000000000000 0xC000000000000000 = is1 0xC008000000000000 ∧ vv (.vsclx ab) 0x4008000000000000 0x4000000000000000 = is1 0x4028000000000000
    ∧ vTiles (.vfma ab) 0 0x3FF0000000000000 (xf 1 [0x4000000000000000]) (some (xf 1 [0x4008000000000000])) = is1 0x401C000000000000
    ∧ vTiles (.vfms ab) 0 0x3FF0000000000000 (xf 1 [0x4000000000000000]) (some (xf 1 [0x4008000000000000])) = is1 0x4014000000000000 := by
  decide +kernel

theorem test_v_float_singles :
    v1 (.vsqrt a0) 0x4022000000000000 = is1 0x4008000000000000 ∧ v1 (.vrcp a0) 0x4000000000000000 = is1 0x3FE0000000000000
    ∧ v1 (.vrsq a0) 0x4010000000000000 = is1 0x3FE0000000000000 ∧ v1 (.vexp a0) 0 = is1 0x3FF0000000000000 ∧ v1 (.vexp2 a0) 0x4008000000000000 = is1 0x4020000000000000
    ∧ v1 (.vlog2 a0) 0x4020000000000000 = is1 0x4008000000000000 ∧ v1 (.vtanh a0) 0 = is1 0 ∧ v1 (.vsigm a0) 0 = is1 0x3FE0000000000000
    ∧ v1 (.vabs a0) 0xC000000000000000 = is1 0x4000000000000000 ∧ v1 (.vneg a0) 0x4000000000000000 = is1 0xC000000000000000 := by
  decide +kernel

/-- 1 and 2 against 2 and 2, as truth values. -/
def vc (i : Instr) : Option (List (List Word)) :=
  vTiles i 0 0 (xf 1 [0x3FF0000000000000, 0x4000000000000000]) (some (xf 1 [0x4000000000000000, 0x4000000000000000]))

theorem test_v_compares :
    vc (.vcmpEq ab) = some [[0, 0x3FF0000000000000]] ∧ vc (.vcmpNe ab) = some [[0x3FF0000000000000, 0]] ∧ vc (.vcmpLt ab) = some [[0x3FF0000000000000, 0]]
    ∧ vc (.vcmpLe ab) = some [[0x3FF0000000000000, 0x3FF0000000000000]] ∧ vc (.vcmpUn ab) = some [[0, 0]]
    ∧ vTiles (.vselm ab) 0 0x4010000000000000 (maskTile 1 2 [true, false]) (some (xf 1 [0x4000000000000000, 0x4008000000000000]))
      = some [[0x4000000000000000, 0x4010000000000000]] := by
  decide +kernel

theorem test_v_integers :
    vv (.viadd ab) 0x4018000000000000 0x4008000000000000 = is1 0x4022000000000000 ∧ vv (.visub ab) 0x4008000000000000 0x4018000000000000 = is1 0xC008000000000000
    ∧ vv (.vimul ab) 0x4000000000000000 0x4008000000000000 = is1 0x4018000000000000 ∧ vv (.viand ab) 0x4018000000000000 0x4008000000000000 = is1 0x4000000000000000
    ∧ vv (.vior ab) 0x4010000000000000 0x4008000000000000 = is1 0x401C000000000000 ∧ vv (.vixor ab) 0x4018000000000000 0x4008000000000000 = is1 0x4014000000000000
    ∧ vv (.vishl ab) 0x4008000000000000 0x4000000000000000 = is1 0x4028000000000000 ∧ vv (.vishr ab) 0xC018000000000000 0x3FF0000000000000 = is1 0xC008000000000000
    ∧ vv (.vimin ab) 0x4018000000000000 0xC008000000000000 = is1 0xC008000000000000 ∧ vv (.vimax ab) 0x4018000000000000 0xC008000000000000 = is1 0x4018000000000000
    ∧ vTiles (.vcvt a0) 0x800 0 (xf 1 [0x4004000000000000]) none = is1 0x4000000000000000 := by
  decide +kernel

/-- 1, 2, 3 and 4 in two rows. -/
def four : Tile := xf 2 [0x3FF0000000000000, 0x4000000000000000, 0x4008000000000000, 0x4010000000000000]

theorem test_v_rows :
    vTiles (.rsumr a0) 0 0 four none = some [[0x4008000000000000, 0x401C000000000000]] ∧ vTiles (.rmaxr a0) 0 0 four none = some [[0x4000000000000000, 0x4010000000000000]]
    ∧ vTiles (.rminr a0) 0 0 four none = some [[0x3FF0000000000000, 0x4008000000000000]] ∧ vTiles (.rsumc a0) 0 0 four none = some [[0x4010000000000000, 0x4018000000000000]]
    ∧ vTiles (.rmaxc a0) 0 0 four none = some [[0x4008000000000000, 0x4010000000000000]]
    ∧ (vTiles (.vexpd ab) 0 0 four (some (xf 2 [0x3FF0000000000000, 0x4008000000000000]))).map (·.take 1) =
        (vTiles (.vexp a0) 0 0 (xf 2 [0, 0x3FF0000000000000, 0, 0x3FF0000000000000]) none)
    ∧ vTiles (.vrdiv ab) 0 0 four (some (xf 2 [0x4000000000000000, 0x4000000000000000])) =
        some [[0x3FE0000000000000, 0x3FF0000000000000, 0x3FF8000000000000, 0x4000000000000000]]
    ∧ vTiles (.topk (opf 0 5 1 2 0)) 0x2000000000000 5 four none = some [[0x4010000000000000, 0x4008000000000000], [0x4020000000000000, 0x401C000000000000]] := by
  decide +kernel

theorem test_v_had :
    vTiles (.had a0) 0 0 (xf 1 (0x3FF0000000000000 :: List.replicate 31 0)) none = some [List.replicate 32 0x3FF0000000000000] := by
  decide +kernel

theorem test_v_layouts :
    vTiles (.ttrn a0) 0 0 four none = some [[0x3FF0000000000000, 0x4008000000000000, 0x4000000000000000, 0x4010000000000000]]
    ∧ vTiles (.tbrd a0) 0x82000000 0 (xf 2 [0x3FF0000000000000, 0x4000000000000000]) none = some [[0x3FF0000000000000, 0x3FF0000000000000, 0x4000000000000000, 0x4000000000000000]]
    ∧ vTiles (.tslc a0) 0x1041000000 0 four none = some [[0x4008000000000000]]
    ∧ vTiles (.tcat ab) 2 0 (xf 1 [0x3FF0000000000000]) (some (xf 1 [0x4000000000000000])) = some [[0x3FF0000000000000, 0x4000000000000000]]
    ∧ vTiles (.tperm ab) 0 0 four (some (xf 2 [0x3FF0000000000000, 0])) = some [[0x4008000000000000, 0x4010000000000000, 0x3FF0000000000000, 0x4000000000000000]]
    ∧ vTiles (.tfill al) 0x81000000 0x4008000000000000 four none = some [[0x4008000000000000, 0x4008000000000000]]
    ∧ vTiles (.tiota al) 0x81000000 0 four none = some [[0, 0x3FF0000000000000]] := by
  decide +kernel

theorem test_poison_makes_poison_tiles :
    shown (exec (.vadd ab) (issuing (putTile base 1 four) (.vadd ab) 0 0 (some (tokOf 0 1 four)) (some (poisonTok 1)) none)) (fun t =>
      t.flow.firings.map fun f => (f.due, f.outs.map fun r => match r.val with
        | .tile d _ p => (p, (Desc.ofWords d 0).rows, (Desc.ofWords d 0).psn)
        | _ => (false, 0, false))) = some [(1, [(true, 2, true)])] := by
  decide +kernel

/-! ### Hypotheses of the statements on V -/

/-- VADD of two tiles being issued. -/
def atVadd : State := issuing (putTile (putTile base 1 four) 2 four) (.vadd ab) 0 0 (some (tokOf 0 1 four)) (some (tokOf 1 2 four)) none

/-- Its firing and slot. -/
def vaddFiring : Firing := firingOf (.vadd ab) (some (tokOf 0 1 four)) (some (tokOf 1 2 four)) none

theorem test_hyps_issuing_v : Issuing (.vadd ab) atVadd vaddFiring (slotOf (.vadd ab) 0 0) part0 ctx0 :=
  ⟨⟨by decide +kernel, rfl⟩, by decide +kernel, by decide +kernel, by decide +kernel, by decide +kernel, by decide +kernel, by decide +kernel, by decide +kernel, by decide +kernel,
    by decide +kernel⟩

theorem test_hyps_sound_v : SoundTiles atVadd vaddFiring ∧ NoPoison vaddFiring := by
  unfold SoundTiles NoPoison
  decide +kernel

theorem test_hyps_outgoing_v : Outgoing ab vaddFiring (slotOf (.vadd ab) 0 0) part0 ctx0 false 0 0 :=
  ⟨by decide +kernel, by decide +kernel, by decide +kernel⟩

theorem test_hyps_v_tiles :
    (floatTiles (.vadd ab) atVadd vaddFiring (slotOf (.vadd ab) 0 0) part0).isSome = true
    ∧ (otherTiles (.viadd ab) atVadd vaddFiring (slotOf (.viadd ab) 0 0) part0).isSome = true
    ∧ (rowTiles (.rsumr a0) atVadd vaddFiring (slotOf (.rsumr a0) 0 0) part0).isSome = true
    ∧ (layoutTiles (.ttrn a0) atVadd vaddFiring (slotOf (.ttrn a0) 0 0) part0).isSome = true
    ∧ (floatTiles (.vadd ab) atVadd { vaddFiring with b := some (poisonTok 1) } (slotOf (.vadd ab) 0 0) part0).isSome = true
    ∧ (opB { vaddFiring with b := some (poisonTok 1) } (slotOf (.vadd ab) 0 0) ab).poison = true := by
  decide +kernel

/-! ### M (R118 to R126): tiles of 1, 2, 3 and 4, whose product is 7, 10, 15 and 22 -/

/-- What the hypotheses on an operator's issue ask, with the invariant apart. -/
theorem issuing_of {i : Instr} {s : State} {f : Firing} {sl : Slot} {y : CoreCtx} {x : Ctx} (inv : s.Inv)
    (h : s.firing = some f ∧ s.slot? f.core f.ctx f.eng f.slot = some sl ∧ s.cctx? f.core f.ctx = some y ∧ s.ctx? f.ctx = some x
      ∧ encode i = some sl.word ∧ f.op = wordOp sl.word ∧ ((sl.declares 0 && isEos f.a) = false ∧ (sl.declares 1 && isEos f.b) = false)
      ∧ f.eos = false ∧ s.firing? f.id = none) : Issuing i s f sl y x :=
  ⟨inv, h.1, h.2.1, h.2.2.1, h.2.2.2.1, h.2.2.2.2.1, h.2.2.2.2.2.1, h.2.2.2.2.2.2.1, h.2.2.2.2.2.2.2.1, h.2.2.2.2.2.2.2.2⟩

/-- Two tiles in scratchpad. -/
def twoFours : State := putTile (putTile base 1 four) 2 four

/-- An operator of the two being issued, with its first literal. -/
def atTwo (i : Instr) (lit0 : Word) : State := issuing twoFours i lit0 0 (some (tokOf 0 1 four)) (some (tokOf 1 2 four)) none

/-- Its firing. -/
def twoFiring (i : Instr) : Firing := firingOf i (some (tokOf 0 1 four)) (some (tokOf 1 2 four)) none

theorem test_hyps_products :
    Issuing (.mma ab) (atTwo (.mma ab) 0) (twoFiring (.mma ab)) (slotOf (.mma ab) 0 0) part0 ctx0
    ∧ opA (twoFiring (.mma ab)) (slotOf (.mma ab) 0 0) ab = .tile (tokOf 0 1 four)
    ∧ operand (twoFiring (.mma ab)) (slotOf (.mma ab) 0 0) [0, 1] ab.srcB = .tile (tokOf 1 2 four)
    ∧ part0.accs.length = 4 ∧ (tokOf 0 1 four).desc.kind = 0 ∧ (tokOf 0 1 four).desc.cols = (tokOf 1 2 four).desc.rows :=
  ⟨issuing_of ⟨by decide +kernel, rfl⟩ (by decide +kernel), by decide +kernel⟩

/-- The firing of MMA at its end, with a result tile to be filled in granule 24. -/
def endingMma : Firing :=
  { twoFiring (.mma ab) with phase := .working, job := .mma 1 0 1 2 2 false,
                             outs := [{ codes := [1], val := .tile (Desc.word { Desc.ofWords (four.desc false) 0 with addr := 4096 * 3, alloc := 3 }) 0 false, col := 0, tag := 0 }] }

/-- The state then. -/
def atMmaEnd : State :=
  let s := putTile (atTwo (.mma ab) 0) 3 four
  { s with firing := none, flow := { s.flow with firings := [endingMma] } }

theorem test_hyps_product_ends :
    atMmaEnd.Inv ∧ atMmaEnd.firing? 0 = some endingMma ∧ atMmaEnd.runs 0 = true ∧ endingMma.op = wordOp (slotOf (.mma ab) 0 0).word
    ∧ endingMma.due ≤ atMmaEnd.ck ∧ atMmaEnd.slot? 0 0 endingMma.eng 0 = some (slotOf (.mma ab) 0 0) ∧ atMmaEnd.cctx? 0 0 = some part0
    ∧ part0.part = none ∧ part0.cont = none ∧ endingMma.tok 0 = some (tokOf 0 1 four) ∧ endingMma.tok 1 = some (tokOf 1 2 four) :=
  ⟨⟨by decide +kernel, rfl⟩, by decide +kernel⟩

theorem test_product :
    shown (exec (.firingResultSend 0) atMmaEnd) (fun t => (t.cores.map fun y => [0, 1, 64, 65, 2].map fun p => encodeFp64 (accVal (accAt (y.accs.getD 0 AccSet.reset) p))))
      = some [[0x401C000000000000, 0x4024000000000000, 0x402E000000000000, 0x4036000000000000, 0]] := by
  decide +kernel

/-- Accumulator operators: the operand b and the set as A. -/
def accB : OpFields := opf 4 1 1 0 0

theorem test_hyps_accumulators :
    Issuing (.accld a0) (atTwo (.accld a0) 1) (twoFiring (.accld a0)) (slotOf (.accld a0) 1 0) part0 ctx0
    ∧ Issuing (.accst accB) (atTwo (.accst accB) 0) (twoFiring (.accst accB)) (slotOf (.accst accB) 0 0) part0 ctx0
    ∧ Issuing (.accz a0) (atTwo (.accz a0) 0) (twoFiring (.accz a0)) (slotOf (.accz a0) 0 0) part0 ctx0
    ∧ Issuing (.accscl accB) (atTwo (.accscl accB) 0) (twoFiring (.accscl accB)) (slotOf (.accscl accB) 0 0) part0 ctx0
    ∧ opA (twoFiring (.accld a0)) (slotOf (.accld a0) 1 0) a0 = .tile (tokOf 0 1 four)
    ∧ (operand (twoFiring (.accst accB)) (slotOf (.accst accB) 0 0) [0, 1] accB.srcB).ok = true ∧ (part0.accs.getD 0 AccSet.reset).pmark = false
    ∧ (opB (twoFiring (.accscl accB)) (slotOf (.accscl accB) 0 0) accB).ok = true ∧ (opB (twoFiring (.accscl accB)) (slotOf (.accscl accB) 0 0) accB).kindIn [0] = true :=
  ⟨issuing_of ⟨by decide +kernel, rfl⟩ (by decide +kernel), issuing_of ⟨by decide +kernel, rfl⟩ (by decide +kernel), issuing_of ⟨by decide +kernel, rfl⟩ (by decide +kernel),
    issuing_of ⟨by decide +kernel, rfl⟩ (by decide +kernel), by decide +kernel⟩

theorem test_hyps_accumulators_sound :
    SoundTiles (atTwo (.accld a0) 1) (twoFiring (.accld a0)) ∧ SoundTiles (atTwo (.accst accB) 0) (twoFiring (.accst accB))
    ∧ SoundTiles (atTwo (.accz a0) 0) (twoFiring (.accz a0)) ∧ SoundTiles (atTwo (.accscl accB) 0) (twoFiring (.accscl accB)) := by
  unfold SoundTiles
  decide +kernel

theorem test_hyps_accumulators_out :
    Outgoing (wordFields (slotOf (.accld a0) 1 0).word) (twoFiring (.accld a0)) (slotOf (.accld a0) 1 0) part0 ctx0 false 0 0
    ∧ Outgoing (wordFields (slotOf (.accst accB) 0 0).word) (twoFiring (.accst accB)) (slotOf (.accst accB) 0 0) part0 ctx0 false 0 0
    ∧ Outgoing (wordFields (slotOf (.accz a0) 0 0).word) (twoFiring (.accz a0)) (slotOf (.accz a0) 0 0) part0 ctx0 false 0 0
    ∧ Outgoing (wordFields (slotOf (.accscl accB) 0 0).word) (twoFiring (.accscl accB)) (slotOf (.accscl accB) 0 0) part0 ctx0 false 0 0 :=
  ⟨⟨by decide +kernel, by decide +kernel, by decide +kernel⟩, ⟨by decide +kernel, by decide +kernel, by decide +kernel⟩,
    ⟨by decide +kernel, by decide +kernel, by decide +kernel⟩, ⟨by decide +kernel, by decide +kernel, by decide +kernel⟩⟩

/-- ACCLD of the scales of a set: both columns of the tile. -/
theorem test_accumulator_scales :
    shown (exec (.accld a0) (atTwo (.accld a0) 3)) (fun t => t.cores.map fun y => [(0, 0), (1, 1), (2, 0)].map fun p => encodeFp64 (accVal (scaleAt (y.accs.getD 0 AccSet.reset) p.1 p.2)))
      = some [[0x3FF0000000000000, 0x4010000000000000, 0x3FF0000000000000]] := by
  decide +kernel

theorem test_accumulators :
    shown (exec (.accld a0) (atTwo (.accld a0) 1)) (fun t => t.cores.map fun y => [0, 1, 64, 65, 2].map fun p => encodeFp64 (accVal (accAt (y.accs.getD 0 AccSet.reset) p)))
      = some [[0x3FF0000000000000, 0x4000000000000000, 0x4008000000000000, 0x4010000000000000, 0]] := by
  decide +kernel

/-- MCONT with a block: its firing stopped with 5 ck to go. -/
def atMcont : State :=
  let s := atTwo (.mma ab) 0
  let f : Firing := { endingMma with phase := .working, busy := 5 }
  { s with cores := [{ part0 with cont := some 1 }], firing := some f, flow := { s.flow with firings := [f] } }

theorem test_hyps_mcont : atMcont.Inv ∧ (∃ f, atMcont.firing = some f ∧ (atMcont.firing? f.id).isSome = true)
    ∧ (atMcont.cctx? 0 0).bind (·.cont) = some 1 :=
  ⟨⟨by decide +kernel, rfl⟩, ⟨_, rfl, by decide +kernel⟩, by decide +kernel⟩

theorem test_mcont : shown (exec (.mcont a0) atMcont) (fun t => (t.flow.firings.map (·.due), t.cores.map (·.cont))) = some ([5], [none]) := by
  decide +kernel

/-! ### Parallel, poison and debug operators (R182 to R188, R311 to R317) -/

/-- A token of 7 on port a, one of 9 on port b, and a true predicate. -/
def a7 : Token := scalarTok 0 7
/-- Token b. -/
def b9 : Token := scalarTok 1 9
/-- A true predicate. -/
def pTrue : Token := { placedToken .v 2 with kind := 2, w0 := 1 }
/-- A false predicate. -/
def pFalse : Token := { pTrue with w0 := 0 }

/-- A result: destinations, colour, tag, and the word and poison mark of the value. -/
structure SentTo where
  codes : List Nat
  col : Nat
  tag : BitVec 32
  word : Word
  poison : Bool
deriving DecidableEq, Repr

/-- What an operator sends. -/
def sent (i : Instr) (lit0 lit1 : Word) (a b p : Option Token) : Option (List SentTo) :=
  shown (exec i (issuing (withObjs base) i lit0 lit1 a b p)) fun t => t.flow.firings.flatMap fun f => f.outs.map fun r =>
    match r.val with
    | .scalar w q => ⟨r.codes, r.col, r.tag, w, q⟩
    | .forward t => ⟨r.codes, r.col, r.tag, t.w0, t.psn⟩
    | .pred q => ⟨r.codes, r.col, r.tag, if q then 1 else 0, false⟩
    | _ => ⟨r.codes, r.col, r.tag, 99, false⟩

/-- Operand a to entries 1 and 2. -/
def a12 : OpFields := opf 0 5 1 2 0
/-- Operands a and b to entries 1 and 2. -/
def ab12 : OpFields := opf 0 1 1 2 0

theorem test_routing :
    sent (.steer a12) 0 0 (some a7) none (some pTrue) = some [⟨[1], 0, 0, 7, false⟩] ∧ sent (.steer a12) 0 0 (some a7) none (some pFalse) = some [⟨[2], 0, 0, 7, false⟩]
    ∧ sent (.select ab12) 0 0 (some a7) (some b9) (some pFalse) = some [⟨[1, 2], 0, 0, 9, false⟩]
    ∧ sent (.merge ab12) 0 0 none (some b9) none = some [⟨[1, 2], 0, 0, 9, false⟩]
    ∧ sent (.gate a12) 0 0 (some a7) none (some pFalse) = some [] ∧ sent (.gate a12) 0 0 (some a7) none (some pTrue) = some [⟨[1, 2], 0, 0, 7, false⟩]
    ∧ sent (.sync ab12) 0 0 (some a7) (some b9) none = some [⟨[1], 0, 0, 7, false⟩, ⟨[2], 0, 0, 9, false⟩]
    ∧ sent (.sink (opf 0 5 0 0 0)) 0 0 (some a7) none none = some [] ∧ sent (.pass a12) 0 0 (some a7) none none = some [⟨[1, 2], 0, 0, 7, false⟩]
    ∧ sent (.cola a12) 0 0 (some a7) none none = some [⟨[1], 1, 0, 7, false⟩, ⟨[2], 0, 0, 1, false⟩]
    ∧ sent (.colf (opf 0 3 1 2 0)) 0 0 (some a7) none none = some [⟨[1, 2], 0, 0, 7, false⟩] := by
  decide +kernel

theorem test_iterating :
    sent (.itnx a12) 0 3 (some { a7 with tag := 0x101 }) none none = some [⟨[1], 0, 0x102, 7, false⟩]
    ∧ sent (.itnx a12) 0 3 (some { a7 with tag := 0x102 }) none none = some [⟨[2], 0, 0x100, 7, false⟩]
    ∧ sent (.itex a12) 1 4 (some { a7 with tag := 0x010203 }) none none = some [⟨[1, 2], 4, 0x010000, 7, false⟩]
    ∧ sent (.fork a12) 1 2 (some { a7 with tag := 0x105 }) none none = some [⟨[1], 0, 0x005, 7, false⟩, ⟨[1], 0, 0x105, 7, false⟩, ⟨[2], 0, 0x105, 2, false⟩] := by
  decide +kernel

theorem test_predicates :
    sent (.pand a12) 0 0 (some a7) none (some pTrue) = some [⟨[1, 2], 0, 0, 1, false⟩] ∧ sent (.por a12) 0 0 (some (scalarTok 0 0)) none (some pFalse) = some [⟨[1, 2], 0, 0, 0, false⟩]
    ∧ sent (.pnot (opf 5 5 1 2 0)) 0 0 none none (some pFalse) = some [⟨[1, 2], 0, 0, 1, false⟩]
    ∧ sent (.pcnst (opf 0 3 1 2 0)) 0 0x8000000000000000 (some a7) none none = some [⟨[1, 2], 0, 0, 0, false⟩] := by
  decide +kernel

theorem test_poison_and_debug :
    sent (.psn a12) 0 0 (some a7) none none = some [⟨[1, 2], 0, 0, 7, true⟩] ∧ sent (.ptst a12) 0 0 (some (poisonTok 0)) none none = some [⟨[1], 0, 0, 1, false⟩, ⟨[2], 0, 0, 0, true⟩]
    ∧ sent (.dbrk a12) 0 0 (some a7) none none = some [⟨[1, 2], 0, 0, 7, false⟩] ∧ sent (.dstp a12) 0 0 (some a7) none none = some [⟨[1, 2], 0, 0, 7, false⟩]
    ∧ sent (.dhld a12) 0 0 (some a7) none none = some [⟨[1, 2], 0, 0, 7, false⟩] ∧ sent (.trapo a12) 5 0 (some a7) none none = some [⟨[1, 2], 0, 0, 7, false⟩]
    ∧ shown (exec (.seal (opf 0 5 0 0 0)) (issuing base (.seal (opf 0 5 0 0 0)) 0 0 (some a7) none none)) (fun t => t.flow.seals.map fun q => (q.1, q.2.1)) = some [(0, 0)] := by
  decide +kernel

theorem test_trapo_frame :
    let s := issuing (atCtl id) (.trapo a12) 5 0 (some a7) none none
    s.Inv ∧ (planOf (.trapo a12)).isSome = true
    ∧ shown (exec (.trapo a12) s) (fun t => ((t.ctl 0).status, (t.ctl 0).trapos.length, decide (t.ctl 1 = s.ctl 1))) = some ((s.ctl 0).status ||| 0x400000000, 1, true) :=
  ⟨⟨by decide +kernel, rfl⟩, by decide, by decide +kernel⟩

theorem test_tag_actions :
    sent (.pass (opf 0 5 1 0 1)) 0 0 (some { a7 with tag := 0x1FE }) none none = some [⟨[1, 0], 0, 0x1FF, 7, false⟩]
    ∧ sent (.pass (opf 0 5 1 0 2)) 0 0 (some { a7 with tag := 0x1FE }) none none = some [⟨[1, 0], 0, 0x2FE, 7, false⟩]
    ∧ sent (.pass (opf 0 5 1 0 5)) 0 0 (some { a7 with tag := 0x1FE }) none none = some [⟨[1, 0], 0, 0x100, 7, false⟩]
    ∧ sent (.pass (opf 0 5 1 0 8)) 0 3 (some { a7 with tag := 0x1FE }) none none = some [⟨[1, 0], 3, 0x1FE, 7, false⟩]
    ∧ sent (.pass (opf 0 5 1 0 9)) 0 0 (some { a7 with tag := 0x1FE }) none none = some [⟨[1, 0], 0, 0, 7, false⟩]
    ∧ tagAction 0x208208 4 1 0 0 0 0x1FF = .inl 8 ∧ tagAction 0x208208 4 8 5 0 0 0 = .inl 9 := by
  decide +kernel

theorem test_hyps_tags : tagWidth 0x208208 0 + tagWidth 0x208208 1 + tagWidth 0x208208 2 + tagWidth 0x208208 3 ≤ 32 ∧ tagField 0x208208 0x1FE 0 + 1 < 2^(tagWidth 0x208208 0)
    ∧ 2^(tagWidth 0x208208 0) ≤ tagField 0x208208 0x1FF 0 + 1 := by
  decide +kernel

/-- The routing operators' hypotheses, for STEER and for COLF of colour 0. -/
def atRoute (i : Instr) : State := issuing base i 0 0 (some a7) none (some pTrue)

theorem test_hyps_routing :
    Issuing (.steer a12) (atRoute (.steer a12)) (firingOf (.steer a12) (some a7) none (some pTrue)) (slotOf (.steer a12) 0 0) part0 ctx0
    ∧ SoundTiles (atRoute (.steer a12)) (firingOf (.steer a12) (some a7) none (some pTrue)) ∧ NoPoison (firingOf (.steer a12) (some a7) none (some pTrue))
    ∧ (routed (.steer a12) (atRoute (.steer a12)) (firingOf (.steer a12) (some a7) none (some pTrue)) (slotOf (.steer a12) 0 0) part0 ctx0).isSome = true
    ∧ (routed (.colf (opf 0 3 1 2 0)) base (firingOf (.colf (opf 0 3 1 2 0)) (some a7) none none) (slotOf (.colf (opf 0 3 1 2 0)) 0 0) part0 ctx0).isSome = true :=
  ⟨issuing_of ⟨by decide +kernel, rfl⟩ (by decide +kernel), by unfold SoundTiles; decide +kernel, by unfold NoPoison; decide +kernel, by decide +kernel⟩

/-! ### Memory and asynchronous operators (R127 to R135, R242 to R249, R269 to R279, R312, R348) -/

/-- The context of `withObjs`. -/
def ctxG : Ctx := { ctx0 with groups := [(1, 1)] }

/-- An operator over the objects being issued, with tile `four` in record 1 and a column of two indices 0 and 1 in record 2. -/
def atMem (i : Instr) (lit0 lit1 : Word) (a b : Option Token) : State :=
  issuing (putTile (putTile (withObjs base) 1 four) 2 (intXs)) i lit0 lit1 a b none
where
  /-- The indices 0 and 1 as a dense column. -/
  intXs : Tile := xf 2 [0, 0x3FF0000000000000]

/-- The tile on port a, and the indices on either port. -/
def ta : Option Token := some (tokOf 0 1 four)
/-- Index tile on port a. -/
def xa : Option Token := some (tokOf 0 2 (xf 2 [0, 0x3FF0000000000000]))
/-- Index tile on port b. -/
def xb : Option Token := some (tokOf 1 2 (xf 2 [0, 0x3FF0000000000000]))

/-- What the statements' memory work says: its cost, whether it has an access, and its Chest entry's class, kind and handle. -/
def worked (w : Option Work) : Option (List Nat) :=
  w.map fun w => [w.cost, if w.job = .none then 0 else 1] ++ (w.entry.map fun e => [e.1, e.2.1, e.2.2.1]).getD []

/-- That of a memory operator. -/
def memOf (i : Instr) (lit0 lit1 : Word) (a b : Option Token) : Option (List Nat) :=
  worked (memoryWork i (atMem i lit0 lit1 a b) (firingOf i a b none) (slotOf i lit0 lit1) part0 ctxG)

/-- What issuing the operator does: the energy it takes, whether its firing has memory work, and its Chest entry. -/
def memDone (i : Instr) (lit0 lit1 : Word) (a b : Option Token) : Option (List Nat) :=
  (shown (exec i (atMem i lit0 lit1 a b)) fun t => t.flow.firings.head?.map fun f =>
    [100 - (t.cores.map (·.ebudget)).headD 0, if f.job = .none then 0 else 1] ++ (t.msys.chest.head?.map fun e => [e.cls, e.kind, e.handle]).getD []).join

/-- Both. -/
def memBoth (i : Instr) (lit0 lit1 : Word) (a b : Option Token) : Option (List Nat) :=
  if memOf i lit0 lit1 a b = memDone i lit0 lit1 a b then memOf i lit0 lit1 a b else none

/-- Two rows and two columns of object 5. -/
def two5 : Word := 0x82000005

theorem test_memory_work :
    memBoth (.tld ao) two5 0 (some a7) none = some [2, 1, 0, 0, 5] ∧ memBoth (.tldg ao) two5 0 xa none = some [2, 1, 0, 4, 5]
    ∧ memBoth (.tst ao) two5 0 ta none = some [2, 1, 1, 1, 5] ∧ memBoth (.tsts ab) two5 0 ta xb = some [2, 1, 1, 5, 5]
    ∧ memBoth (.sld ao) 5 0 (some a7) none = some [1, 1, 0, 2, 5] ∧ memBoth (.sst ao) 5 0 (some a7) none = some [1, 1, 1, 3, 5]
    ∧ memBoth (.rpush ao) 6 0 ta none = some [2, 1, 2, 7, 6] ∧ (memDone (.rpop ao) 6 0 (some a7) none) = some [1, 1, 2, 8, 6] := by
  decide +kernel

theorem test_atomic_and_fence_work :
    [Instr.atad ab, .atmn ab, .atmx ab, .atxc ab, .atcs ab].map (fun i => memBoth i 5 0 (some a7) (some b9)) = List.replicate 5 (some [1, 1, 2, 6, 5])
    ∧ [Instr.fncEngine a0, .fncCore a0, .fncQuad a0, .fncCluster a0, .fncDie a0, .fncDevice a0, .fncSystem a0].map (fun i => memBoth i 0 0 (some a7) none)
      = List.replicate 7 (some [1, 1, 0, 9, 0]) := by
  decide +kernel

/-- The work of an asynchronous operator. -/
def asyncOf (i : Instr) (lit0 lit1 : Word) (a b : Option Token) : Option (List Nat) :=
  worked (asyncWork i (atMem i lit0 lit1 a b) (firingOf i a b none) (slotOf i lit0 lit1) part0 ctxG)

/-- The work as stated and as done. -/
def asyncBoth (i : Instr) (lit0 lit1 : Word) (a b : Option Token) : Option (List Nat) :=
  if asyncOf i lit0 lit1 a b = memDone i lit0 lit1 a b then asyncOf i lit0 lit1 a b else none

theorem test_async_work :
    asyncBoth (.stadv a0) 0 0 (some a7) none = some [1, 0] ∧ asyncBoth (.cnadd ab) 8 0 (some a7) (some b9) = some [1, 1, 2, 10, 8]
    ∧ asyncBoth (.cnwt ab) 8 1 (some a7) (some b9) = some [1, 1, 0, 11, 8] ∧ asyncBoth (.cnrd a0) 8 0 (some a7) none = some [1, 1, 0, 12, 8]
    ∧ asyncBoth (.shop a0) 5 0 (some a7) none = some [1, 1, 2, 19, 5] ∧ asyncBoth (.nmiv ab) 5 0 (some a7) (some b9) = some [1, 1, 2, 15, 5]
    ∧ asyncBoth (.cmpr a0) 9 0 (some (scalarTok 0 64)) none = some [1, 1, 0, 21, 9] ∧ asyncBoth (.lnchOperator a0) 9 0 (some (scalarTok 0 64)) none = some [1, 1, 2, 22, 0]
    ∧ asyncBoth (.bara ao) 7 0 (some a7) none = some [1, 1, 2, 13, 7] ∧ asyncBoth (.barw ao) 7 0 (some a7) none = some [1, 1, 0, 14, 7]
    ∧ asyncBoth (.chsv ao) 9 0 (some (scalarTok 0 64)) none = some [1, 1, 1, 1, 9] ∧ asyncBoth (.chrs a0) 0 0 (some a7) none = some [1, 0]
    ∧ asyncBoth (.chrp a0) 0 0 (some a7) none = some [1, 1, 0, 9, 0] ∧ asyncBoth (.tkcl a0) 5 0 (some a7) none = some [1, 0]
    ∧ asyncBoth (.tkq a0) 0 0 (some a7) none = some [1, 0] := by
  decide +kernel

/-- A Bench entry of an atomic by core 0 on object 5, whose firing is number 7. -/
def bench7 : Bench :=
  { core := 0, idx := 0, st := 0, order := 4, owner := 3, ohandle := 5, block := 0, ticket := 0, serial := 0, wait := false, result := 0, ok := false, ctx := 0, ogen := 0,
    ticketed := false, handle := 5, op := 0, isRead := false, fid := 7, sect := 0, blocks := [], part := none }

/-- MCST to group 1 and TKRP of the Bench's entry. -/
def mcstEntry : Word := 0xC000000000200000 + 0x2000

theorem test_more_async_work :
    (asyncWork (.mcst (opf 0 3 1 0 0)) (atMem (.mcst (opf 0 3 1 0 0)) 0 mcstEntry (some a7) none) (firingOf (.mcst (opf 0 3 1 0 0)) (some a7) none none)
      (slotOf (.mcst (opf 0 3 1 0 0)) 0 mcstEntry) part0 ctxG).isSome = true
    ∧ (let s := atMem (.tkrp a0) 0 0 (some (scalarTok 0 bench7.ref)) none
       (asyncWork (.tkrp a0) { s with msys := { s.msys with bench := [bench7] } } (firingOf (.tkrp a0) (some (scalarTok 0 bench7.ref)) none none)
        (slotOf (.tkrp a0) 0 0) part0 ctxG).isSome = true)
    ∧ (let s := atMem (.publ a0) 5 0 (some a7) none
       (asyncWork (.publ a0) { s with msys := { s.msys with objs := [(5, { tensor with st := 4 })] } } (firingOf (.publ a0) (some a7) none none)
        (slotOf (.publ a0) 5 0) part0 ctxG).isSome = true) := by
  decide +kernel

/-- TLD of object 5 being issued. -/
def atTld : State := atMem (.tld ao) two5 0 (some a7) none

theorem test_hyps_memory :
    Issuing (.tld ao) atTld (firingOf (.tld ao) (some a7) none none) (slotOf (.tld ao) two5 0) part0 ctxG
    ∧ Issuing (.rpop ao) (atMem (.rpop ao) 6 0 (some a7) none) (firingOf (.rpop ao) (some a7) none none) (slotOf (.rpop ao) 6 0) part0 ctxG
    ∧ Issuing (.cnadd ab) (atMem (.cnadd ab) 8 0 (some a7) (some b9)) (firingOf (.cnadd ab) (some a7) (some b9) none) (slotOf (.cnadd ab) 8 0) part0 ctxG :=
  ⟨issuing_of ⟨by decide +kernel, rfl⟩ (by decide +kernel), issuing_of ⟨by decide +kernel, rfl⟩ (by decide +kernel), issuing_of ⟨by decide +kernel, rfl⟩ (by decide +kernel)⟩

theorem test_hyps_pop :
    record? (atMem (.rpop ao) 6 0 (some a7) none) (firingOf (.rpop ao) (some a7) none none) 6 1 0 = some ring ∧ fmtBits ring.fmt ≤ 8 * dim ring.shape 1
    ∧ Outgoing ao (firingOf (.rpop ao) (some a7) none none) (slotOf (.rpop ao) 6 0) part0 ctxG false 0 0 :=
  ⟨by decide +kernel, by decide +kernel, ⟨by decide +kernel, by decide +kernel, by decide +kernel⟩⟩

theorem test_hyps_fault_at_issue :
    ∃ p, planOf (.tld ao) = some p
      ∧ (p { atMem (.tld ao) 0x82000004 0 (some a7) none with firing := none } (firingOf (.tld ao) (some a7) none none) (slotOf (.tld ao) 0x82000004 0) part0 ctxG).fault = some 3
      ∧ Issuing (.tld ao) (atMem (.tld ao) 0x82000004 0 (some a7) none) (firingOf (.tld ao) (some a7) none none) (slotOf (.tld ao) 0x82000004 0) part0 ctxG :=
  ⟨_, rfl, by decide +kernel, issuing_of ⟨by decide +kernel, rfl⟩ (by decide +kernel)⟩

theorem test_fault_seals :
    shown (exec (.tld ao) (atMem (.tld ao) 0x82000004 0 (some a7) none)) (fun t => (t.flow.firings.length, t.msys.chest.length, t.flow.seals)) = some (0, 0, [(0, 0, 3)]) := by
  decide +kernel

theorem test_hyps_poison_store :
    let t : Token := { tokOf 0 1 four with kind := 5, psn := true }
    let s := atMem (.tst ao) two5 0 (some t) none
    let f := firingOf (.tst ao) (some t) none none
    tokenBeside f ao 2 = some t ∧ t.isPoison = true ∧ t.isTile = true ∧ record? s f 5 0 1 = some tensor
    ∧ (planTst ao s f (slotOf (.tst ao) two5 0) part0 ctxG).fault = some 5
    ∧ record? s f 6 1 1 = some ring ∧ t.desc.rows * t.desc.cols * fmtBits ring.fmt ≤ 8 * dim ring.shape 1
    ∧ (planRpush ao s f (slotOf (.rpush ao) 6 0) part0 ctxG).fault = some 5 := by
  decide +kernel

/-- Poison tile and index, and poison scalars on ports a and b. -/
def pt : Option Token := some { tokOf 0 1 four with kind := 5, psn := true }
/-- The index. -/
def px : Option Token := some { tokOf 1 2 (xf 2 [0, 0x3FF0000000000000]) with kind := 5, psn := true }

/-- Whether an operator faults with poison store. -/
def poisoned (i : Instr) (lit0 : Word) (a b : Option Token) : Bool :=
  match planOf i with
  | some p => (p (atMem i lit0 0 a b) (firingOf i a b none) (slotOf i lit0 0) part0 ctxG).fault = some 5
  | none => false

theorem test_poison_never_stores :
    poisoned (.tsts ab) two5 pt xb = true ∧ poisoned (.tsts ab) two5 ta px = true ∧ poisoned (.sst ao) 5 (some (poisonTok 0)) none = true
    ∧ [Instr.atad ab, .atmn ab, .atmx ab, .atxc ab, .atcs ab].all (fun i => poisoned i 5 (some (poisonTok 0)) (some b9) && poisoned i 5 (some a7) (some (poisonTok 1))) = true
    ∧ poisoned (.cnadd ab) 8 (some (poisonTok 0)) (some b9) = true ∧ poisoned (.tst ao) two5 pt none = true
    ∧ (planNmiv ab (atMem (.nmiv ab) 5 0 (some (poisonTok 0)) (some b9)) (firingOf (.nmiv ab) (some (poisonTok 0)) (some b9) none) (slotOf (.nmiv ab) 5 0) part0 ctxG).fault.isSome = true
    ∧ (planChsv ao (atMem (.chsv ao) 9 0 (some (poisonTok 0)) none) (firingOf (.chsv ao) (some (poisonTok 0)) none none) (slotOf (.chsv ao) 9 0) part0 ctxG).fault.isSome = true := by
  decide +kernel

theorem test_hyps_poison_stores :
    let f := firingOf (.tsts ab) pt xb none
    let s := atMem (.tsts ab) two5 0 pt xb
    record? s f 5 0 1 = some tensor ∧ firingCoord f ctxG two5 (six two5 24) (six two5 30) [0, 0, 0, 0, 0, 0] = some [0, 0, 0, 0, 0, 0] ∧ tensor.rank ≠ 1
    ∧ tensor.group = 1 ∧ tensor.had = false ∧ f.tok ab.srcA = pt ∧ (xb.map fun t => (t.desc.kind, t.desc.cols, t.desc.rows)) = some (0, 1, 2) ∧ four.rows = 2
    ∧ (xb.bind (rowsOfIndex s f)).map (·.length) = some 2 ∧ (xb.map (s.tileEcc f.core)) = some false
    ∧ valueOperand (operand (firingOf (.sst ao) (some (poisonTok 0)) none none) (slotOf (.sst ao) 5 0) [0, 1, 3, 5, 6] ao.srcA) = some (0, 0, true)
    ∧ (counterOf (atMem (.cnadd ab) 8 0 (some (poisonTok 0)) (some b9)) (firingOf (.cnadd ab) (some (poisonTok 0)) (some b9) none) (slotOf (.cnadd ab) 8 0) ctxG false 2).isSome = true
    ∧ ¬ NoPoison (firingOf (.cnadd ab) (some (poisonTok 0)) (some b9) none) := by
  unfold NoPoison
  decide +kernel

/-! ### Events: results, arrivals and resources (R12 to R30, R161 to R180) -/

/-- A state with token flow as given. -/
def flowing (s : State) (g : Flow → Flow) : State := { s with flow := g s.flow }

/-- Destination entry k of engine e: port a of slot 0 of V on core 0. -/
def toV (e : Eng) (k : Nat) : Dest := { core := 0, ctx := 0, eng := e, idx := k, entry := 0xC000000000000000 }

/-- PASS with a result to send. -/
def sending : Firing :=
  { firingOf (.pass a12) (some a7) none none with id := 3, phase := .working, freeCol := some 2, outs := [{ codes := [1, 2], val := .scalar 7 false, col := 1, tag := 5 }] }

/-- FORK with three copies to send. -/
def forking : Firing :=
  { sending with op := 0x89, outs := List.replicate 3 { codes := [1], val := .scalar 7 false, col := 1, tag := 5 } }

/-- A state in which a firing has results to send. -/
def atSending (f : Firing) : State := flowing base fun w => { w with slots := [slotOf (.pass a12) 0 0], dests := [toV f.eng 1, toV f.eng 2], firings := [f] }

theorem test_sends :
    shown (exec (.firingResultSend 3) (atSending sending)) (fun t => (t.flow.net.map fun q => [q.tok.slot, q.tok.port, q.tok.kind, q.tok.col, q.tok.tag.toNat, q.tok.w0.toNat], t.flow.returns.map fun r => (r.core, r.ctx, r.col, r.due))) =
      some (List.replicate 2 [0, 0, 1, 1, 5, 7], [(0, 0, 2, 1)])
    ∧ shown (exec (.firingResultSend 3) (atSending forking)) (fun t => (t.flow.net.length, t.flow.firings.map (·.outs.length))) = some (1, [2]) := by
  decide +kernel

theorem test_hyps_sends :
    (atSending sending).Inv ∧ (atSending sending).firing? 3 = some sending ∧ (atSending sending).runs 0 = true ∧ sending.forks = false ∧ sending.due ≤ (atSending sending).ck
    ∧ (atSending forking).firing? 3 = some forking ∧ forking.forks = true ∧ forking.due + 2 ≤ (atSending forking).ck + forking.outs.length
    ∧ (atSending sending).dest 0 0 sending.eng 1 = 0xC000000000000000 ∧ payload (.scalar 7 false) = some (1, false, 7, 0) :=
  ⟨⟨by decide +kernel, rfl⟩, by decide +kernel⟩

theorem test_hyps_eos :
    Outgoing a12 (firingOf (.pass a12) (some a7) none none) (slotOf (.pass a12) 0 0) part0 ctx0 false 0 0 ∧ wordOp (slotOf (.pass a12) 0 0).word ≠ 0x2B
    ∧ wordOp (slotOf (.rpush ao) 6 0).word = 0x2B ∧ (atMem (.rpush ao) 6 0 (some a7) none).translate 0 6 1 1 = .ok ring ∧ ring.owner = base.devId
    ∧ Outgoing ao (firingOf (.rpush ao) (some a7) none none) (slotOf (.rpush ao) 6 0) part0 ctxG false 0 0 :=
  ⟨⟨by decide +kernel, by decide +kernel, by decide +kernel⟩, by decide +kernel, by decide +kernel, by decide +kernel, by decide +kernel,
    ⟨by decide +kernel, by decide +kernel, by decide +kernel⟩⟩

theorem test_eos :
    shown (exec .eosFiring (atRoute (.pass a12))) (fun t => t.flow.firings.map fun f => f.outs.map (·.val)) = some [[.eos]]
    ∧ shown (exec .eosFiring (atMem (.rpush ao) 6 0 (some a7) none)) (fun t => t.msys.chest.map fun e => (e.kind, e.handle)) = some [(7, 6)] := by
  decide +kernel

/-- A token in flight from engine V of core 1. -/
def inNet (t : Token) : NetTok := { srcCore := 1, srcEng := .v, tok := t, body := none, fromDev := none, toDev := none, strm := 0 }

/-- A token for port p of slot 0 of V, and one for the control core. -/
def vTok (p k : Nat) : Token := { placedToken .v p with kind := k, w0 := 7 }
/-- The control core's. -/
def cTok : Token := { placedToken .c 0 with kind := 1, w0 := 7 }

/-- VADD in slot 0 of V, with tokens in flight, over a running control core. -/
def arriving (toks : List Token) : State :=
  flowing (atCtl id) fun w => { w with slots := [slotOf (.vadd ab) 0 0], dests := [toV .v 1], net := toks.map inNet }

/-- A Drawer that holds its a. -/
def halfDrawer : Drawer := { core := 0, ctx := 0, eng := .v, slot := 0, col := 0, a := some (vTok 0 1), b := none, p := none, overflow := none }

theorem test_arrivals :
    shown (exec (.tokenArrival 0) (arriving [{ vTok 0 1 with ctx := 9 }])) (fun t => t.host.log.length) = some 1
    ∧ shown (exec (.tokenArrival 0) (arriving [{ vTok 0 1 with slot := 5 }])) (fun t => t.ctxs.map (·.orph)) = some [1]
    ∧ shown (exec (.tokenArrival 0) (arriving [cTok])) (fun t => (t.ctl 0).rq) = some [cTok]
    ∧ shown (exec (.tokenArrival 0) (arriving [vTok 0 1])) (fun t => t.flow.drawers) = some [halfDrawer]
    ∧ shown (exec (.tokenArrival 0) (flowing (arriving [vTok 1 1]) fun w => { w with drawers := [halfDrawer] })) (fun t =>
        (t.flow.drawers, t.flow.ready.map fun r => (r.a, r.b))) = some ([], [(some (vTok 0 1), some (vTok 1 1))])
    ∧ shown (exec (.tokenArrival 0) (flowing (arriving [vTok 1 1]) fun w => { w with ingress := [inNet (vTok 0 1)] })) (fun t =>
        (t.flow.net, t.flow.ingress)) = some ([], [inNet (vTok 0 1), inNet (vTok 1 1)])
    ∧ shown (exec (.errorEosArrival 0) (flowing (arriving [vTok 1 4]) fun w => { w with drawers := [halfDrawer] })) (fun t =>
        (t.flow.drawers, t.flow.net.map fun q => q.tok.kind)) = some ([], [4])
    ∧ shown (exec (.ingressHeldTokenPlace 0) (flowing (arriving []) fun w => { w with ingress := [inNet cTok] })) (fun t => ((t.ctl 0).rq, t.flow.ingress)) = some ([cTok], []) := by
  decide +kernel

/-- SEAL in slot 0 of V, its ignored destination field naming entry 1. -/
def atSeal (toks : List Token) : State := flowing (arriving toks) fun w => { w with slots := [{ slotOf (.vadd ab) 0 0 with word := 0xA2140800 }] }

theorem test_seal_sends_nothing :
    wordOp 0xA2140800 = 0xA2 ∧ opDests (wordFields 0xA2140800) ≠ [0, 0]
    ∧ shown (exec (.errorEosArrival 0) (atSeal [vTok 0 4])) (fun t => t.flow.net) = some []
    ∧ shown (exec .eosFiring { atSeal [] with firing := some { firingOf (.seal (opf 0 5 1 0 0)) (some (vTok 0 3)) none none with eng := .v }, nextId := 1 })
        (fun t => t.flow.firings.map fun f => f.outs.map (·.codes)) = some [[[0, 0]]] := by
  decide +kernel

theorem test_hyps_arrivals :
    (arriving [vTok 1 1]).Inv ∧ Arriving (arriving [vTok 1 1]) 0 (inNet (vTok 1 1)) ∧ Takes (arriving [vTok 1 1]) (vTok 1 1) part0 (slotOf (.vadd ab) 0 0)
    ∧ TakenIn (arriving [cTok]) cTok ∧ (arriving [{ vTok 0 1 with ctx := 9 }]).ctx? 9 = none
    ∧ (arriving [{ vTok 0 1 with slot := 5 }]).slot? 0 0 .v 5 = none ∧ (slotOf (.vadd ab) 0 0).declares 0 = true ∧ (slotOf (.vadd ab) 0 0).declares 1 = true
    ∧ (slotOf (.vadd ab) 0 0).declares 2 = false ∧ part0.eosPassed .v 0 0 1 = false ∧ (arriving [vTok 1 1]).engineDrawers 0 .v = 0
    ∧ (arriving [vTok 1 1]).arrival (vTok 1 1) ≠ .hold ∧ opDests (wordFields (slotOf (.vadd ab) 0 0).word) = [1, 0]
    ∧ (arriving [vTok 1 1]).issuedNow 0 .v = false ∧ (inNet (vTok 0 1)).lane = (inNet (vTok 1 1)).lane :=
  ⟨⟨by decide +kernel, rfl⟩, ⟨by decide +kernel, by decide +kernel, fun q hq => absurd hq (List.not_mem_nil), rfl⟩,
    ⟨⟨ctx0, (loadedCtx 0).sects.head (by decide), by decide +kernel, rfl, rfl, by decide +kernel, by decide +kernel, by decide +kernel⟩, by decide +kernel, by decide +kernel, by decide +kernel, by decide +kernel,
      ⟨_, rfl, by decide +kernel⟩⟩,
    ⟨⟨ctx0, by decide +kernel⟩, ⟨part0, by decide +kernel⟩, rfl, by decide +kernel, by decide +kernel⟩, by decide +kernel⟩

/-- A tile packet for the control core that waits for room. -/
def tilePacket : NetTok := { inNet { placedToken .c 0 with kind := 0, w0 := four.desc false } with body := some four.bytes }

/-- It waits with its request, over a core whose first 8 granules are taken. -/
def atPacket : State :=
  flowing (atCtl id) fun w => { w with ingress := [tilePacket], reqs := [{ core := 0, bytes := (Desc.ofWords (four.desc false) 0).bytes, who := .packet tilePacket }],
                                       allocs := [{ core := 0, idx := 0, base := 0, len := 8, refs := 1, ctx := 0 }] }

theorem test_hyps_packet :
    atPacket.flow.reqs.find? (fun r => r.core == 0) = some { core := 0, bytes := (Desc.ofWords (four.desc false) 0).bytes, who := .packet tilePacket }
    ∧ tilePacket.body = some four.bytes ∧ TakenIn atPacket tilePacket.tok ∧ tilePacket.tok.kind = 0
    ∧ LowestRun atPacket 0 (((Desc.ofWords tilePacket.tok.w0 0).bytes + 511) / 512) 8 :=
  ⟨by decide +kernel, rfl, ⟨⟨ctx0, by decide +kernel⟩, ⟨part0, by decide +kernel⟩, rfl, by decide +kernel, by decide +kernel⟩, rfl,
    ⟨by decide +kernel, by decide +kernel, by decide +kernel⟩⟩

/-- A request for a save area of 1,024 bytes, behind an allocation of granules 0 to 7. -/
def atSaveArea : State := flowing atPacket fun w => { w with ingress := [], reqs := [{ core := 0, bytes := 1024, who := .saveArea 0 }] }

/-- A firing that waits for its result's room. -/
def waitsRoom : Firing := { sending with phase := .waitSpace, busy := 4, outs := [{ codes := [1], val := .newTile (four.desc false) four.bytes false, col := 0, tag := 0 }] }

/-- The state of that. -/
def atRoom : State :=
  flowing atPacket fun w => { w with ingress := [], firings := [waitsRoom], reqs := [{ core := 0, bytes := (Desc.ofWords (four.desc false) 0).bytes, who := .firing 3 }] }

/-- Colour 2 comes back to a core where a firing of S waits since ck 5. -/
def atReturn (waiters : List Ready) : State :=
  { flowing base (fun w => { w with returns := [⟨0, 0, 2, 0⟩], cwait := waiters }) with cores := [{ part0 with pool := [(2, 0)] }] }

/-- A waiter for a colour. -/
def waiter : Ready :=
  { core := 0, ctx := 0, eng := .s, slot := 0, col := 0, a := some a7, b := none, p := none, overflow := none, seq := 0, ck := 5, since := 5, got := none, cont := false }

theorem test_resources :
    shown (exec (.allocationGrant 0) atSaveArea) (fun t => (t.flow.allocs.map fun a => (a.base, a.len), t.flow.reqs)) = some ([(0, 8), (8, 2)], [])
    ∧ shown (exec (.overflowDrawerMove 0 .v) (flowing base fun w => { w with drawers := [{ halfDrawer with overflow := some 0 }] })) (fun t => t.flow.drawers) = some [halfDrawer]
    ∧ shown (exec (.colourReturn 0) (atReturn [])) (fun t => t.cores.map (·.pool)) = some [[]]
    ∧ shown (exec (.colourReturn 0) (atReturn [waiter])) (fun t => t.flow.cwait.map (·.got)) = some [some 2]
    ∧ shown (exec .energyRefill { base with ctxs := [{ ctx0 with erate := 30 }], cores := [{ part0 with shortfall := 10, ebudget := 990 }] }) (fun t =>
        (t.ck, t.cores.map fun y => (y.ebudget, y.shortfall))) = some (1, [(1000, 0)])
    ∧ shown (exec (.dataflowStallDetect 0 0) { atCtl id with ctxs := [{ ctx0 with dlwin := 4096, stall := [(0, 4096)] }] }) (fun t => (t.ctl 0).status.getLsbD 32) = some true := by
  decide +kernel

theorem test_hyps_resources :
    atSaveArea.Inv ∧ LowestRun atSaveArea 0 2 8 ∧ atSaveArea.flow.reqs.find? (fun r => r.core == 0) = some { core := 0, bytes := 1024, who := .saveArea 0 }
    ∧ atRoom.flow.reqs.find? (fun r => r.core == 0) = some { core := 0, bytes := (Desc.ofWords (four.desc false) 0).bytes, who := .firing 3 }
    ∧ atRoom.firing? 3 = some waitsRoom ∧ atRoom.flow.reqs.length = 1 ∧ waitsRoom.op ≠ 0x2C ∧ waitsRoom.order = none
    ∧ LowestRun atRoom 0 (((Desc.ofWords (four.desc false) 0).bytes + 511) / 512) 8
    ∧ (atReturn []).flow.returns[0]? = some ⟨0, 0, 2, 0⟩ ∧ (atReturn []).held 0 = false ∧ ((atReturn []).cctx? 0 0).map (·.held 2) = some true :=
  ⟨⟨by decide +kernel, rfl⟩, ⟨by decide +kernel, by decide +kernel, by decide +kernel⟩, by decide +kernel, by decide +kernel, by decide +kernel, by decide +kernel,
    by decide +kernel, by decide +kernel, ⟨by decide +kernel, by decide +kernel, by decide +kernel⟩, by decide +kernel⟩

theorem test_hyps_stall :
    (∃ c, c < 384 ∧ ctx0.part.getLsbD c = true ∧ c / 64 = 0) ∧ ({ ctx0 with dlwin := 4096, stall := [(0, 4096)] } : Ctx).stallCount 0 = 4096
    ∧ ∀ d, d ≠ 0 → ¬ ∃ c, c < 384 ∧ ctx0.part.getLsbD c = true ∧ c / 64 = d := by
  refine ⟨⟨0, by decide +kernel⟩, by decide +kernel, ?_⟩
  rintro d hd ⟨c, hc, hp, rfl⟩
  have : ∀ c < 384, ctx0.part.getLsbD c = true → c / 64 = 0 := by decide +kernel
  exact hd (this c hc hp)

/-! ### Banks, hub and relocation (R189, R208 to R211, R238, R245, R249, R262 to R274, R286 to R288) -/

/-- An issued Chest entry of core 0's context, number 4, with its firing 7. -/
def chest4 (cls kind h : Nat) : Chest :=
  { core := 0, ctx := 0, order := 4, st := 0, cls := cls, kind := kind, slot := 0, eng := 2, col := 0, tag := 0, sect := 0, gen := 1, handle := h, row := 0, cell := 0, alloc := 0,
    dedup := 9, arg := 0, fid := 7, rows := 0, done := false, result := 0, ok := false, poison := false, counted := true, owner := 0, got := [] }

/-- The firing, with some memory work. -/
def firing7 (j : Job) : Firing :=
  { firingOf (.pass a12) (some a7) none none with id := 7, phase := .working, order := some 4, job := j, outs := [{ codes := [1, 0], val := .scalar 0 false, col := 0, tag := 0 }] }

/-- The state of an operation at its bank, with bytes placed at an address. -/
def atBank (e : Chest) (j : Job) (a : Nat) (bs : List Byte) : State :=
  let s := withBytes (withObjs base) a bs
  { s with msys := { s.msys with chest := [e] }, flow := { s.flow with firings := [firing7 j] } }

/-- What the hypotheses on an operation's entry ask. -/
theorem outstanding_of {s : State} {e : Chest} {f : Firing} {x : Ctx} (inv : s.Inv)
    (h : s.chest? e.core e.ctx e.order = some e ∧ e.st = 0 ∧ s.firing? e.fid = some f ∧ (f.order = some e.order ∧ f.core = e.core ∧ f.ctx = e.ctx ∧ f.phase = .working)
      ∧ (s.ctx? e.ctx = some x ∧ x.phase = .resident ∧ x.watch.held = none) ∧ ∀ b ∈ s.msys.bench, b.fid ≠ f.id ∧ ¬(b.core = e.core ∧ b.ctx = e.ctx ∧ b.order = e.order)) : Outstanding s e f :=
  ⟨inv, h.1, h.2.1, h.2.2.1, h.2.2.2.1, ⟨x, h.2.2.2.2.1⟩, h.2.2.2.2.2⟩

/-- The barrier's 16 bytes: arrivals, expected, generation and group. -/
def barBytes (arr gen grp : Nat) : List Byte := leBytes 4 arr ++ leBytes 4 2 ++ leBytes 4 gen ++ leBytes 4 grp

/-- BARA at its bank with some arrivals. -/
def atBara (arr grp : Nat) : State := atBank (chest4 2 13 7) (.barrierArrive 7 barrier) 0x800300000000 (barBytes arr 6 grp)
/-- BARW for generation 6 or another. -/
def atBarw (gen : Nat) : State := atBank (chest4 0 14 7) (.barrierWait 7 barrier 6) 0x800300000000 (barBytes 1 gen 1)
/-- CNADD of 5 to counter 2, which holds n. -/
def atCnadd (n : Nat) : State := atBank (chest4 2 10 8) (.counterAdd 8 counters 2 5) 0x800300000050 (leBytes 8 n)
/-- CNWT for 40 on counters 1 and 2, which hold m and n. -/
def atCnwt (m n : Nat) : State := atBank (chest4 0 11 8) (.counterWait 8 counters [1, 2] 40) 0x800300000048 (leBytes 8 m ++ leBytes 8 n)

/-- The entry's outcome after an event: whether it is done, and its result. -/
def outcome (i : Instr) (s : State) : Option (List (Bool × Word)) := shown (exec i s) fun t => t.msys.chest.map fun e => (e.done, e.result)

theorem test_barriers_and_counters :
    shown (exec (.barrierArrivalPerform 0 0 4) (atBara 0 1)) (fun t => (t.readNat 0x800300000000 4, t.readNat 0x800300000008 4)) = some (1, 6)
    ∧ shown (exec (.barrierArrivalPerform 0 0 4) (atBara 1 1)) (fun t => (t.readNat 0x800300000000 4, t.readNat 0x800300000008 4)) = some (0, 7)
    ∧ shown (exec (.barrierArrivalPerform 0 0 4) (atBara 0 3)) (fun t => (t.flow.firings.length, t.flow.seals.length)) = some (0, 1)
    ∧ outcome (.barrierWaitAnswer 0 0 4) (atBarw 6) = some [(false, 0)] ∧ outcome (.barrierWaitAnswer 0 0 4) (atBarw 7) = some [(true, 7)]
    ∧ outcome (.counterAddPerform 0 0 4) (atCnadd 30) = some [(true, 30)]
    ∧ shown (exec (.counterAddPerform 0 0 4) (atCnadd 30)) (fun t => t.readNat 0x800300000050 8) = some 35
    ∧ shown (exec (.counterAddPerform 0 0 4) (atCnadd (2^64 - 5))) (fun t => (t.msys.chest.length, t.flow.seals.length, t.readNat 0x800300000050 8)) = some (0, 1, 2^64 - 5)
    ∧ outcome (.counterWaitSatisfied 0 0 4) (atCnwt 40 39) = some [(false, 0)] ∧ outcome (.counterWaitSatisfied 0 0 4) (atCnwt 45 40) = some [(true, 40)] := by
  decide +kernel

theorem test_hyps_barriers_and_counters :
    Outstanding (atBara 0 1) (chest4 2 13 7) (firing7 (.barrierArrive 7 barrier)) ∧ Outstanding (atBarw 6) (chest4 0 14 7) (firing7 (.barrierWait 7 barrier 6))
    ∧ Outstanding (atCnadd 30) (chest4 2 10 8) (firing7 (.counterAdd 8 counters 2 5)) ∧ Outstanding (atCnwt 40 39) (chest4 0 11 8) (firing7 (.counterWait 8 counters [1, 2] 40))
    ∧ (atBara 0 1).reloc? 7 barrier.gen = none ∧ TagRoom (atBara 0 1) (bankKey barrier.base) ∧ (atCnadd 30).reloc? 8 counters.gen = none
    ∧ TagRoom (atCnadd 30) (bankKey counters.base) :=
  ⟨outstanding_of (x := ctxG) ⟨by decide +kernel, rfl⟩ (by decide +kernel), outstanding_of (x := ctxG) ⟨by decide +kernel, rfl⟩ (by decide +kernel),
    outstanding_of (x := ctxG) ⟨by decide +kernel, rfl⟩ (by decide +kernel), outstanding_of (x := ctxG) ⟨by decide +kernel, rfl⟩ (by decide +kernel),
    by decide +kernel, by unfold TagRoom; decide +kernel, by decide +kernel, by unfold TagRoom; decide +kernel⟩

/-- RPUSH of an EOS marker, and of the 2 by 2 tile, to the ring whose head and tail are given. -/
def atPush (head tail : Nat) : State := atBank (chest4 2 7 6) (.push 6 ring 0 0 1 0) 0x50000 (leBytes 8 head ++ leBytes 8 tail)
/-- RPOP from the ring with head 0 and the given tail, whose slot 0 has the word w and the data 1 and 2. -/
def atPop (tail w : Nat) : State :=
  let s := atBank (chest4 2 8 6) (.pop 6 ring) 0x50000 (leBytes 8 0 ++ leBytes 8 tail ++ List.replicate 48 0 ++ leBytes 8 0x3FF0000000000000 ++ leBytes 8 0x4000000000000000)
  let s := withBytes s (0x50000 + 64 + 2048) (leBytes 8 w)
  { s with flow := { s.flow with firings := [{ firing7 (.pop 6 ring) with psum := some 3 }], allocs := [{ core := 0, idx := 3, base := 16, len := 9, refs := 1, ctx := 0 }] } }

theorem test_rings :
    outcome (.ringOpPerform 0 0 4) (atPush 1 5) = some [(false, 0)] ∧ outcome (.ringOpPerform 0 0 4) (atPush 2 5) = some [(true, 5)]
    ∧ shown (exec (.ringOpPerform 0 0 4) (atPush 2 5)) (fun t => (t.readNat 0x50008 8, t.readNat (0x50000 + 64 + 2048 + 8) 8)) = some (6, 1)
    ∧ outcome (.ringOpPerform 0 0 4) (atPop 0 0) = some [(false, 0)] ∧ outcome (.ringOpPerform 0 0 4) (atPop 2 1) = some [(true, 1)]
    ∧ shown (exec (.ringOpPerform 0 0 4) (atPop 2 1)) (fun t => (t.readNat 0x50000 8, t.flow.firings.map fun f => f.outs.map (·.val))) = some (1, [[.eos]])
    ∧ outcome (.ringOpPerform 0 0 4) (atPop 1 (2 * 2^11 + 2^4)) = some [(true, 2 * 2^11 + 2^4)] := by
  decide +kernel

theorem test_hyps_rings :
    Outstanding (atPush 2 5) (chest4 2 7 6) (firing7 (.push 6 ring 0 0 1 0)) ∧ Outstanding (atPop 2 1) (chest4 2 8 6) { firing7 (.pop 6 ring) with psum := some 3 }
    ∧ (atPush 2 5).reloc? 6 ring.gen = none ∧ TagRoom (atPush 2 5) (bankKey ring.base) ∧ 1 ≤ dim ring.shape 2
    ∧ ring.base + 64 + dim ring.shape 2 * dim ring.shape 1 + 8 * dim ring.shape 2 ≤ 2^48 ∧ (atPop 2 1).readNat (0x50000 + 64 + 2048) 8 % 4 = 1
    ∧ (atPop 1 (2 * 2^11 + 2^4)).readNat (0x50000 + 64 + 2048) 8 % 4 = 0 ∧ (atPop 1 (2 * 2^11 + 2^4)).eccHit (0x50000 + 64) 16 = false :=
  ⟨outstanding_of (x := ctxG) ⟨by decide +kernel, rfl⟩ (by decide +kernel), outstanding_of (x := ctxG) ⟨by decide +kernel, rfl⟩ (by decide +kernel), by decide +kernel,
    by unfold TagRoom; decide +kernel, by decide +kernel⟩

/-- Element 3 of the INT32 object: bytes 0x2000C to 0x2000F. -/
def int3 : Access := mkAccess part0 (slotOf (.atad ab) 11 0) 11 ints [3, 0, 0, 0, 0, 0] [0] 1 0 0
/-- Element 3 as the firing's coordinate gives it. -/
def atAtad : State := atBank (chest4 2 6 11) (.atomic int3 0 0 10 false 0) 0x2000C (leBytes 4 0xFFFFFFFE)
/-- NMIV 0 of 10 on it. -/
def atNmiv (sub : Nat) : State := atBank (chest4 2 15 11) (.invoke int3 sub 10 0) 0x2000C (leBytes 4 0xFFFFFFFE)
/-- Reading counter 2, which holds 30. -/
def atCnrd : State := atBank (chest4 0 12 8) (.counterRead 8 counters 2) 0x800300000050 (leBytes 8 30)
/-- SST of 10 to the element. -/
def atSst : State := atBank (chest4 1 3 11) (.scalarStore int3 10 false) 0x2000C (leBytes 4 0xFFFFFFFE)
/-- A store of a tile of two rows of one element, one of them issued in each ck. -/
def int3s : Access := { int3 with rows := [0, 1] }
/-- Its state after some ck. -/
def atRows (n : Nat) : State := { atBank (chest4 1 1 11) (.store int3s) 0x2000C (leBytes 4 0xFFFFFFFE) with ck := n }
/-- A barrier arrival that its bank has performed. -/
def atDone : State := atBank { chest4 2 13 7 with done := true, result := 6, ok := true } (.barrierArrive 7 barrier) 0x800300000000 (barBytes 1 6 1)

/-- What the response gives: the values to send. -/
def response (s : State) : Option (List (Nat × List OutVal)) :=
  shown (exec (.memoryResponseArrival 0 0 4) s) fun t => t.flow.firings.map fun f => ((t.msys.chest.map (·.st)).headD 9, f.outs.map (·.val))

theorem test_responses :
    response atDone = some [(1, [.scalar 6 false])] ∧ response atCnrd = some [(1, [.scalar 30 false])]
    ∧ shown (exec (.memoryResponseArrival 0 0 4) atAtad) (fun t => (t.readNat 0x2000C 4, t.readNat 0x20010 4)) = some (8, 0)
    ∧ shown (exec (.memoryResponseArrival 0 0 4) atSst) (fun t => (t.readNat 0x20008 4, t.readNat 0x20010 4)) = some (0, 0)
    ∧ shown (exec (.nearMemoryInvocation 0) (atNmiv 0)) (fun t => (t.readNat 0x2000C 4, t.msys.chest.map (·.done))) = some (8, [true])
    ∧ shown (exec (.retireNotice 0) { base with msys := { base.msys with retires := [(2, 9)], tags := [{ bank := 2, dev := none, tag := 9, result := 0, ok := true, flags := 0 }, { bank := 2, dev := none, tag := 8, result := 0, ok := true, flags := 0 }] } })
        (fun t => (t.msys.retires, t.msys.tags.map (·.tag))) = some ([], [8]) := by
  decide +kernel

theorem test_hyps_responses :
    Outstanding atDone { chest4 2 13 7 with done := true, result := 6, ok := true } (firing7 (.barrierArrive 7 barrier))
    ∧ Outstanding atCnrd (chest4 0 12 8) (firing7 (.counterRead 8 counters 2)) ∧ Outstanding atAtad (chest4 2 6 11) (firing7 (.atomic int3 0 0 10 false 0))
    ∧ Outstanding atSst (chest4 1 3 11) (firing7 (.scalarStore int3 10 false)) ∧ Outstanding (atNmiv 0) (chest4 2 15 11) (firing7 (.invoke int3 0 10 0))
    ∧ Outstanding (atNmiv 16) (chest4 2 15 11) (firing7 (.invoke int3 16 10 0))
    ∧ IntElem atAtad int3 0x2000C 4 ∧ TagRoom atAtad (bankKey 0x2000C) ∧ int3.obj.st = 1 ∧ atSst.reloc? 11 int3.obj.gen = none ∧ atCnrd.reloc? 8 counters.gen = none
    ∧ atCnrd.eccHit 0x800300000050 8 = false ∧ int3.obj.owner = (atNmiv 0).devId
    ∧ (∃ x ps, int3.cell 0 0 = some x ∧ (atNmiv 16).site int3.obj true x = .at ps ∧ (ps.map (·.1)).head? = some 0x2000C) ∧ bankOf 0x2000C = some (.hbm 0)
    ∧ TagRoom (atNmiv 16) 0 ∧ (atNmiv 16).eccHit 0x20000 512 = false
    ∧ Outstanding (atRows 1) (chest4 1 1 11) (firing7 (.store int3s)) ∧ Outstanding (atRows 2) (chest4 1 1 11) (firing7 (.store int3s)) ∧ (atRows 1).issuedRows (firing7 (.store int3s)) = 1
    ∧ (atRows 2).issuedRows (firing7 (.store int3s)) = 2 ∧ int3s.rows.length = 2 ∧ int3s.cols = 1 :=
  ⟨outstanding_of (x := ctxG) ⟨by decide +kernel, rfl⟩ (by decide +kernel), outstanding_of (x := ctxG) ⟨by decide +kernel, rfl⟩ (by decide +kernel),
    outstanding_of (x := ctxG) ⟨by decide +kernel, rfl⟩ (by decide +kernel), outstanding_of (x := ctxG) ⟨by decide +kernel, rfl⟩ (by decide +kernel),
    outstanding_of (x := ctxG) ⟨by decide +kernel, rfl⟩ (by decide +kernel), outstanding_of (x := ctxG) ⟨by decide +kernel, rfl⟩ (by decide +kernel),
    ⟨⟨_, rfl, by decide +kernel⟩, by decide +kernel, by decide +kernel, by decide +kernel, by decide +kernel, by decide +kernel⟩, by unfold TagRoom; decide +kernel, by decide +kernel,
    by decide +kernel, by decide +kernel, by decide +kernel, by decide +kernel, ⟨_, _, rfl, rfl, by decide +kernel⟩, by decide +kernel, by unfold TagRoom; decide +kernel, by decide +kernel,
    outstanding_of (x := ctxG) ⟨by decide +kernel, rfl⟩ (by decide +kernel), outstanding_of (x := ctxG) ⟨by decide +kernel, rfl⟩ (by decide +kernel), by decide +kernel, by decide +kernel, rfl, rfl⟩

/-- A command on object 5 at its hub. -/
def hub5 (op : HubOp) (fid : Option Nat) : HubCmd := { handle := 5, op := op, counter := 0, ctx := 0, fid := fid, performed := false, oldGen := 0, readers := [] }

/-- The hub with it, over object 5 as r. -/
def atHub (r : ObjRec) (op : HubOp) (fid : Option Nat) : State :=
  let s := atBank (chest4 2 19 5) (.hub 5 false) 0x10000 (leBytes 8 0x0102030405060708)
  { s with msys := { s.msys with objs := [(5, r), (8, counters)], hub := [hub5 op fid] } }

/-- The record of object 5 and the commands left. -/
def hubAfter (s : State) : Option (Option ObjRec × Nat) := shown (exec (.hubCommandPerform 0) s) fun t => (t.obj? 5, t.msys.hub.length)

/-- Object 5 moving to 0x200000, with all of its units copied or none. -/
def moving (next : Nat) : State :=
  let s := atHub { tensor with st := 3, shadow := 0x200000 } .orinv none
  { s with msys := { s.msys with hub := [], relocs := [{ handle := 5, gen := 1, oldBase := 0x10000, newBase := 0x200000, unit := 512, units := 64, bytes := 32768, next := next, flipped := false }] } }

/-- Its move performed and flipped, with its counter to post. -/
def drained : State :=
  let s := moving 64
  { s with msys := { s.msys with
    hub := [{ hub5 (.ormov 0x200000) none with counter := 8 + 2 * 2^24, performed := true, oldGen := 1 }]
    relocs := s.msys.relocs.map fun m => { m with flipped := true }
    chest := [] } }

/-- An ORRES of entry 1 of the sparse record that waits at its hub, with its control core. -/
def atOrres : State :=
  let s := atHub sparse (.orres 0 1 [0x70001] 4) none
  s.setCtl { Ctl.reset 0 with owner := some 0, run := .running, wait := .orres 5 0x2000 4 }

theorem test_hub :
    hubAfter (atHub tensor (.orset { tensor with perm := 5 }) none) = some (some { tensor with perm := 5 }, 0)
    ∧ hubAfter (atHub tensor .orinv none) = some (some { ObjRec.reset with gen := 2 }, 0)
    ∧ hubAfter (atHub tensor (.ormov 0x200000) none) = some (some { tensor with st := 3, shadow := 0x200000 }, 1)
    ∧ hubAfter (atHub tensor .shop (some 7)) = some (some { tensor with st := 4 }, 0)
    ∧ hubAfter (atHub { tensor with st := 4 } .publ (some 7)) = some (some { tensor with base := 0x40000, shadow := 0x10000, gen := 2 }, 0)
    ∧ shown (exec (.relocationUnitCopy 5) (moving 0)) (fun t => (t.readNat 0x200000 8, t.readNat 0x10000 8, t.msys.relocs.map (·.next))) = some (0x0102030405060708, 0x0102030405060708, [1])
    ∧ shown (exec (.relocationFlip 5) (moving 64)) (fun t => (t.obj? 5).map fun r => (r.base, r.gen, r.st)) = some (some (0x200000, 2, 1))
    ∧ shown (exec (.generationDrainPost 0) drained) (fun t => (t.msys.hub.length, t.msys.relocs.length, t.readNat 0x800300000050 8)) = some (0, 0, 1)
    ∧ shown (exec (.hubCommandPerform 0) atOrres) (fun t => ((t.ctl 0).wait, (t.ctl 0).pc, t.readNat 0x60008 8)) = some (.none, 4, 0x70001) := by
  decide +kernel

theorem test_hyps_hub :
    AtHub (atHub tensor .orinv none) 0 (hub5 .orinv none) tensor ∧ AtHub (atHub tensor .shop (some 7)) 0 (hub5 .shop (some 7)) tensor
    ∧ AtHub (atHub { tensor with st := 4 } .publ (some 7)) 0 (hub5 .publ (some 7)) { tensor with st := 4 }
    ∧ AtHub (atHub tensor (.ormov 0x200000) none) 0 (hub5 (.ormov 0x200000) none) tensor
    ∧ (atHub tensor .shop (some 7)).firing? 7 = some (firing7 (.hub 5 false)) ∧ (atHub tensor .shop (some 7)).chest? 0 0 4 = some (chest4 2 19 5)
    ∧ (moving 0).Inv ∧ ((moving 0).msys.relocs.find? fun m => m.handle == 5 && !m.flipped && decide (m.next < m.units)).isSome = true
    ∧ ((moving 64).msys.relocs.find? fun m => m.handle == 5 && !m.flipped && decide (m.units ≤ m.next)).isSome = true
    ∧ drained.inflightOf 5 1 = 0 ∧ (drained.msys.hub.map (·.performed)) = [true]
    ∧ (∃ m ∈ drained.msys.relocs, m.handle = 5 ∧ m.gen = 1 ∧ m.flipped = true)
    ∧ AtHub atOrres 0 (hub5 (.orres 0 1 [0x70001] 4) none) sparse ∧ (atOrres.ctl 0).wait = .orres 5 0x2000 4 ∧ (atOrres.ctl 0).owner = some 0 :=
  ⟨⟨⟨by decide +kernel, rfl⟩, by decide +kernel, by decide +kernel, rfl, by decide +kernel⟩, ⟨⟨by decide +kernel, rfl⟩, by decide +kernel, by decide +kernel, rfl, by decide +kernel⟩,
    ⟨⟨by decide +kernel, rfl⟩, by decide +kernel, by decide +kernel, rfl, by decide +kernel⟩, ⟨⟨by decide +kernel, rfl⟩, by decide +kernel, by decide +kernel, rfl, by decide +kernel⟩,
    by decide +kernel, by decide +kernel, ⟨by decide +kernel, rfl⟩, by decide +kernel, by decide +kernel, by decide +kernel, by decide +kernel, by decide +kernel,
    ⟨⟨by decide +kernel, rfl⟩, by decide +kernel, by decide +kernel, rfl, by decide +kernel⟩, by decide +kernel, by decide +kernel⟩

/-! ### Halts, saves and restores (R160, R283 to R296, R304 to R308) -/

/-- A context halted for a residency fault of Chest entry 4. -/
def pageCause : HaltCause := { kind := 32, core := 0, e := 2, slot := 0, handle := 5, gen := 1, block := 0, order := some 4 }

/-- The running control core's state with its context in some phase, with causes and a save object for core 0. -/
def inPhase (ph : CtxPhase) (cs : List HaltCause) : State :=
  { atCtl id with ctxs := [{ ctxG with phase := ph, causes := cs, saveBase := [(0, 0x300000)] }] }

/-- That context. -/
def ctxIn (ph : CtxPhase) (cs : List HaltCause) : Ctx := { ctxG with phase := ph, causes := cs, saveBase := [(0, 0x300000)] }

/-- The stops of all five engines. -/
def allStops : List Stop := (List.range 5).map fun e => { e := e, reason := 0, record := 0, stepped := none }

/-- The engines have stopped. -/
def stopped (ph : CtxPhase) (cs : List HaltCause) : State := { inPhase ph cs with cores := [{ part0 with stops := allStops }] }

/-- Halted, with the faulted entry and its firing. -/
def faulted : State :=
  let s := stopped .halted [pageCause]
  { s with msys := { s.msys with objs := table, objCount := 64, chest := [{ chest4 0 0 5 with st := 3 }] }, flow := { s.flow with firings := [firing7 .none] } }

/-- The part of core 0 as it was saved. -/
def saved0 : SavedPart :=
  { ctl := some { Ctl.reset 0 with owner := some 0, run := .halted, pc := 0x100 }, drawers := [halfDrawer], ready := [], cwait := [], reqs := [], ingress := [], allocs := [], chest := [chest4 0 0 5],
    heldM := false }

/-- Saved on cores 0 and 1. -/
def savedTwo : State :=
  { base with ctxs := [ctxIn .saved []]
              cores := [{ part0 with part := some saved0 }, { part0 with core := 1, part := some { saved0 with ctl := none, drawers := [], chest := [] } }] }

theorem test_halts :
    shown (exec (.haltLineRise 0) (inPhase .resident [pageCause])) (fun t => t.ctxs.map (·.phase)) = some [.halting]
    ∧ shown (exec (.preEmptionRequest 0) (inPhase .resident [])) (fun t => t.ctxs.map fun x => x.causes.map (·.kind)) = some [[35]]
    ∧ shown (exec (.engineStop 0 0 3) (inPhase .halting [pageCause])) (fun t => ((t.ctl 0).run, t.cores.map fun y => y.stops.map (·.e))) = some (.halted, [[3]])
    ∧ shown (exec (.contextHalted 0) (stopped .halting [pageCause])) (fun t => t.ctxs.map (·.phase)) = some [.halted]
    ∧ shown (exec (.faultServiceResume 0) faulted) (fun t => (t.ctxs.map (·.phase), t.msys.chest.map (·.st))) = some ([.restoring], [0]) := by
  decide +kernel

theorem test_refusal_and_restore :
    shown (exec (.faultRefusal 0) faulted) (fun t => (t.flow.firings.map (·.sealed), t.msys.chest.map (·.st))) = some ([true], [2])
    ∧ shown (exec (.faultRefusal 0) faulted) (fun t => t.ctxs.map fun x => x.pendSeals.map (·.1)) = some [[0]]
    ∧ shown (exec (.contextRestore 0 0) savedTwo) (fun t => (t.ctxs.map (·.phase), (t.ctl 0).pc, t.flow.drawers, t.msys.chest.length)) = some ([.restoring], 0x100, [halfDrawer], 1)
    ∧ shown (exec (.haltLineFall 0) (stopped .restoring [])) (fun t => (t.ctxs.map (·.phase), t.cores.map (·.stops))) = some ([.resident], [[]]) := by
  decide +kernel

/-- Pre-empted. -/
def preCause : HaltCause := { pageCause with kind := 35, e := 5, order := none }

/-- A firing of VADD with 5 ck to go, or stopped with 3 to go. -/
def vFiring : Firing := { firing7 .none with eng := .v, op := 0x48, order := none, due := 5 }
/-- The stopped one. -/
def vStopped : Firing := { vFiring with phase := .stopped, busy := 3 }

/-- The context with `dolz` attached, under `break fault`. -/
def watched (ph : CtxPhase) (cs : List HaltCause) (d : Bool) : State :=
  { stopped ph cs with ctxs := [{ ctxIn ph cs with dolz := true, watch := { Watch.reset with onFault := true, due := d } }] }

theorem test_stops :
    shown (exec (.engineStop 0 0 1) (flowing (inPhase .halting [pageCause]) fun w => { w with firings := [vFiring] })) (fun t => t.flow.firings.map fun f => (f.phase, f.busy)) = some [(.stopped, 5)]
    ∧ shown (exec (.haltLineFall 0) (flowing (stopped .restoring []) fun w => { w with firings := [vStopped] })) (fun t => t.flow.firings.map fun f => (f.phase, f.due)) = some [(.stopped, 5)]
    ∧ shown (exec (.haltLineFall 0) (flowing (stopped .restoring []) fun w => { w with firings := [{ vStopped with busy := 0 }] })) (fun t => t.flow.firings.map (·.phase)) = some [.working]
    ∧ shown (step { flowing (inPhase .resident []) (fun w => { w with firings := [vStopped] }) with sched := [.issue 0 .v] }) (fun t => t.flow.firings.map fun f => (f.phase, f.due)) = some [(.working, 3)]
    ∧ shown (exec (.contextHalted 0) (watched .halting [preCause] false)) (fun t => (t.ctxs.map fun x => x.watch.held, t.host.log.length)) = some ([some 0], 2)
    ∧ shown (exec (.haltLineFall 0) (watched .restoring [] true)) (fun t => t.ctxs.map fun x => (x.phase, x.watch.held)) = some [(.restoring, some 0)]
    ∧ shown (exec (.haltLineFall 0) (stopped .restoring [pageCause])) (fun t => t.ctxs.map (·.phase)) = some [.halted] := by
  decide +kernel

theorem test_hyps_engine_stops :
    (flowing (inPhase .halting [pageCause]) fun w => { w with firings := [vFiring] }).flow.firings.any
      ((flowing (inPhase .halting [pageCause]) fun w => { w with firings := [vFiring] }).mustEnd 0 0 1) = false
    ∧ vFiring.phase = .working ∧ vStopped.phase = .stopped ∧ vStopped.needsEngine = true ∧ ({ vStopped with busy := 0 } : Firing).needsEngine = false ∧ (inPhase .halting [pageCause]).serves .faults = true ∧ base.serves .contexts = true ∧ preCause.kind = 35
    ∧ (watched .halting [preCause] false).ctxs.map (fun x => (x.dolz, x.watch.onFault, x.watch.held, x.watch.due)) = [(true, true, none, false)] := by
  decide +kernel

theorem test_save : shown (exec (.contextSave 0 0) (stopped .halted [preCause])) (fun t => ((t.ctl 0).owner, (t.cores.map fun y => y.part.isSome))) = some (none, [true]) := by
  decide +kernel

theorem test_hyps_halts :
    (inPhase .resident [pageCause]).Inv ∧ (inPhase .resident [pageCause]).ctx? 0 = some (ctxIn .resident [pageCause])
    ∧ (inPhase .halting [pageCause]).ctx? 0 = some (ctxIn .halting [pageCause]) ∧ (inPhase .halting [pageCause]).cctx? 0 0 = some part0
    ∧ (inPhase .halting [pageCause]).saveBase? 0 0 = some 0x300000 
    ∧ (stopped .halting [pageCause]).ctx? 0 = some (ctxIn .halting [pageCause])
    ∧ faulted.ctx? 0 = some (ctxIn .halted [pageCause]) ∧ faulted.msys.chest.filter (fun q => q.ctx == 0 && q.st == 3) = [{ chest4 0 0 5 with st := 3 }]
    ∧ faulted.obj? 5 = some tensor ∧ faulted.firing? 7 = some (firing7 .none) ∧ faulted.msys.tags = [] ∧ (ctxIn .halted [pageCause]).watch.held = none ∧ faulted.isSealed 0 0 = false ∧ faulted.flow.seals = []
    ∧ (stopped .halted [preCause]).flow.net = [] ∧ ((stopped .halted [preCause]).ctl 0).owner = some 0 ∧ part0.part = none
    ∧ savedTwo.ctx? 0 = some (ctxIn .saved []) ∧ (savedTwo.cctx? 0 0).bind (·.part) = some saved0 ∧ savedTwo.placeFree 0 0 saved0 = true
    ∧ savedTwo.saveBase? 0 0 = some 0x300000 ∧ (stopped .restoring []).msys.bench = [] :=
  ⟨⟨by decide +kernel, rfl⟩, by decide +kernel⟩

theorem test_hyps_stops :
    (∀ e, ¬ HaltStop (inPhase .halting [pageCause]) 0 0 e) ∧ ∀ y ∈ (stopped .halting [pageCause]).cores, y.ctx = 0 → ∀ e, e < 5 → HaltStop (stopped .halting [pageCause]) y.core 0 e := by
  constructor
  · rintro e ⟨y, st, hy, hs, -⟩
    have : (inPhase .halting [pageCause]).cctx? 0 0 = some part0 := by decide +kernel
    rw [this] at hy; cases hy; cases hs
  · intro y hy _ e he
    have : y = { part0 with stops := allStops } := by simpa [stopped] using hy
    subst this
    exact ⟨{ part0 with stops := allStops }, { e := e, reason := 0, record := 0, stepped := none }, by decide +kernel, by simpa [allStops] using he, rfl, .inl rfl⟩

/-- A refused token for core 3 of device 2. -/
def refusedTok : NetTok := { inNet (vTok 0 1) with toDev := some 2 }

theorem test_hyps_debug :
    let s : State := { base with fabric := { base.fabric with refused := [refusedTok] } }
    s.fabric.refused[0]? = some refusedTok ∧ refusedTok.toDev = some 2 ∧ s.ck % 4096 = 0
    ∧ shown (exec (.refusedTokenResend 0) s) (fun t => (t.fabric.refused.length, t.fabric.packets.map (·.dstDev))) = some (0, [2])
    ∧ ((atCtl fun c => { c with run := .stopped 2 }).ctl 0).run = .stopped 2 ∧ (∀ z ∈ (atCtl id).ctxs, z.phase ≠ .halted ∧ z.watch.held = none)
    ∧ shown (exec (.debugContinue 0 3) (atCtl fun c => { c with run := .stopped 2 })) (fun t => ((t.ctl 0).run, (t.ctl 0).brkPassed)) = some (.running, true)
    ∧ shown (exec (.singleStep 0 3) (atCtl fun c => { c with run := .stopped 1 })) (fun t => ((t.ctl 0).run, (t.ctl 0).steps)) = some (.running, some 1)
    ∧ shown (exec (.debugContinue 0 2) { base with cores := [{ part0 with stops := [{ e := 2, reason := 3, record := 0, stepped := none }, { e := 1, reason := 1, record := 0, stepped := none }] }] })
        (fun t => t.cores.map fun y => y.stops.map (·.e)) = some [[1]] := by
  decide +kernel

/-! ### Seals, nodes, copies and launches (R161, R252 to R262, R267, R278, R297 to R302) -/

/-- Core 0's context with a seal of section 0 in flight, over a Drawer of its slot. -/
def sealing : State := flowing (arriving []) fun w => { w with seals := [(0, 0, 3)], drawers := [halfDrawer] }

/-- The context with a node for section 0 before one for a copy. -/
def noded (st : NodeEnd) (f : Section → Section) : Ctx :=
  { ctxG with sects := ctxG.sects.map f, nodes := [{ copy := false, idx := 0, preds := 0, st := st }, { copy := true, idx := 0, preds := 1, st := .waiting }], edges := [(0, 1)],
              copies := [Copy.fresh 0] }

/-- A state with that context. -/
def atNode (st : NodeEnd) (f : Section → Section) : State := { withObjs (atCtl id) with ctxs := [noded st f] }

/-- A spent part of section 0. -/
def spent0 : CoreCtx := { part0 with sects := [{ sect := 0, count := 1, spent := true }] }

theorem test_sections_and_nodes :
    shown (exec (.sectionSeal 0) sealing) (fun t => (t.flow.drawers.length, t.ctxs.map fun x => (x.faults, x.fkind), (t.ctl 0).seals)) = some (0, [(1, 3)], [(0, 3)])
    ∧ shown (exec (.sectionFinish 0 0) { base with cores := [spent0] }) (fun t => t.ctxs.map fun x => x.sects.map fun q => (q.active, q.finished)) = some [[(false, true)]]
    ∧ shown (exec (.nodeStart 0 0) (atNode .waiting id)) (fun t => t.ctxs.map fun x => x.nodes.map (·.st)) = some [[.started, .waiting]]
    ∧ shown (exec (.nodeEnd 0 0) (atNode .started fun q => { q with finished := true, active := false })) (fun t => t.ctxs.map fun x => x.nodes.map fun n => (n.st, n.preds))
      = some [[(.finished, 0), (.waiting, 0)]]
    ∧ shown (exec (.nodeEnd 0 0) (atNode .started fun q => { q with sealed := true, active := false })) (fun t => t.ctxs.map fun x => (x.nodes.map (·.st), x.aband))
      = some [([.sealed, .abandoned], true)] := by
  decide +kernel

/-- The context whose copy node may start. -/
def copyNode : State := { base with ctxs := [{ noded .finished id with nodes := [{ copy := true, idx := 0, preds := 0, st := .waiting }] }] }

theorem test_hyps_sections_and_nodes :
    sealing.Inv ∧ sealing.ctx? 0 = some ctx0 ∧ sealing.flow.seals[0]? = some (0, 0, 3) ∧ (ctx0.section? 0).map (fun q => (q.sealed, q.finished, q.active)) = some (false, false, true)
    ∧ (∀ c, c < 384 → ({ base with cores := [spent0] } : State).ctxs.any (fun x => x.sects.any fun q => q.cset.getLsbD c) = true → c = 0)
    ∧ (atNode .waiting id).ctx? 0 = some (noded .waiting id) ∧ (noded .waiting id).nodes[0]? = some { copy := false, idx := 0, preds := 0, st := .waiting }
    ∧ ((noded .waiting id).sects[0]?).map (fun q => (q.blocks, q.sealed)) = some ([], false)
    ∧ copyNode.ctxs.map (fun x => x.nodes.map (·.st)) = [[.waiting]]
    ∧ shown (exec (.nodeStart 0 0) copyNode) (fun t => t.ctxs.map fun x => x.copies.map (·.eligible)) = some [[true]] :=
  ⟨⟨by decide +kernel, rfl⟩, by decide +kernel⟩

/-- A block of one slot for core 0 in device memory at 0x60000, in the section's list. -/
def atNodeBlock : State :=
  withBytes (atNode .waiting fun q => { q with blocks := [(0, 0x60000)] }) 0x60000 (blockBytes 0x10200802)

theorem test_hyps_node_block :
    atNodeBlock.blockReadable 0x60000 = true ∧ atNodeBlock.blockReject 0 0 (atNodeBlock.deviceBlock 0x60000) = none ∧ (atNodeBlock.deviceBlock 0x60000).sw = false
    ∧ shown (exec (.nodeStart 0 0) atNodeBlock) (fun t => (t.slot? 0 0 .s 0).map fun q => (q.word, q.sect)) = some (some (0x91140800, 0)) := by
  decide +kernel

/-- A copy of one row of two elements from object 5 to its row 1, on core 0, that counts in counter 2 of array 8. -/
def copy1 : Copy :=
  { Copy.fresh (BitVec.ofNat 512 (2^34 + 2 * 2^40 + 5 * 2^64 + 5 * 2^256 + 1 * 2^352 + 8 * 2^448 + 2 * 2^472)) with eligible := true }

/-- The state with the copy in some condition. -/
def atCopy (c : Copy) (chest : List Chest) : State :=
  let s := withBytes (withObjs base) 0x10000 (leBytes 8 0x3FF0000000000000 ++ leBytes 8 0x4000000000000000)
  { s with ctxs := [{ ctxG with copies := [c] }], cores := [{ part0 with rstg := 1 }], msys := { s.msys with chest := chest } }

/-- It moves. -/
def copyRuns : Copy := { copy1 with running := true, src := some (copy1.source tensor), dst := some (copy1.target tensor), srcOrder := 4, dstOrder := 5 }

theorem test_copies :
    shown (exec (.copyEntryRun 0 0) (atCopy copy1 [])) (fun t => (t.ctxs.map fun x => x.copies.map (·.running), t.msys.chest.map (·.handle), t.cores.map (·.ebudget)))
      = some ([[true]], [5, 5], [99])
    ∧ shown (exec (.copyEntryRun 0 0) (atCopy copyRuns [{ chest4 0 16 5 with eng := 3 }, { chest4 1 17 5 with order := 5, eng := 3 }])) (fun t =>
        ([t.readNat 0x10200 8, t.readNat 0x10208 8], t.ctxs.map fun x => x.copies.map (·.written))) = some ([0x3FF0000000000000, 0x4000000000000000], [[true]])
    ∧ shown (exec (.copyCounterPost 0 0) (atCopy { copyRuns with rowsDone := 1, written := true } [])) (fun t => (t.ctxs.map fun x => x.copies.map (·.posting), t.msys.chest.map (·.handle))) = some ([[true]], [8])
    ∧ shown (exec (.copyCounterPost 0 0) (atCopy { copyRuns with rowsDone := 1, written := true, posting := true } [{ chest4 2 18 8 with done := true, eng := 3 }])) (fun t =>
        (t.ctxs.map fun x => x.copies.map (·.ended), t.msys.chest.length)) = some ([[true]], 0) := by
  decide +kernel

theorem test_hyps_copies :
    copy1.core = 0 ∧ copy1.rows = 1 ∧ copy1.field 0 16 < 1 ∧ (atCopy copy1 []).translate 0 5 0 0 = .ok tensor ∧ (atCopy copy1 []).translate 0 5 0 1 = .ok tensor
    ∧ copy1.fault (copy1.source tensor) (copy1.target tensor) = none ∧ (atCopy copy1 []).copiesRunning 0 < 8 ∧ (atCopy copyRuns []).copyFaulted 0 0 copyRuns = false
    ∧ (atCopy copyRuns []).chest? 0 0 copyRuns.dstOrder = none ∧ (atCopy copy1 []).translate 0 8 3 2 = .ok counters ∧ copy1.field 472 24 < dim counters.shape 1 * dim counters.shape 2
    ∧ (atCopy copy1 []).ecc = [] ∧ tensor.owner = (atCopy copy1 []).devId ∧ copyRuns.rowsDone < copyRuns.rows ∧ (atCopy copyRuns []).rowMoved 0 = false
    ∧ (freeBench ((atCopy copy1 []).benchOf 0)).isSome = true := by
  decide +kernel

/-- A launch record at 0x100000 of version v for core 2, with a completion record at 0x110000 and control images. -/
def launchBytes (v ctls : Nat) : List Byte :=
  leBytes 8 (v + 4 * 2^8) ++ leBytes 8 77 ++ leBytes 8 4 ++ leBytes 8 100 ++ leBytes 8 1 ++ leBytes 8 0x400 ++ leBytes 8 0x110000 ++ leBytes 8 0 ++ leBytes 48 4
    ++ leBytes 40 0 ++ leBytes 8 ctls ++ leBytes 96 0

/-- The device with that launch waiting, and a control image of 8 bytes for core 2 described at 0x120000. -/
def atCreate (v ctls : Nat) : State :=
  let s := withBytes (withBytes State.reset 0x100000 (launchBytes v ctls)) 0x120000
    (leBytes 8 2 ++ leBytes 8 0x130000 ++ leBytes 4 8 ++ leBytes 4 1 ++ leBytes 8 4 ++ leBytes 8 0 ++ leBytes 8 0 ++ leBytes 16 0)
  { s with host := { s.host with launches := [{ places := runPlaces 0x100000, parent := none, ended := false, partMask := 0, cap := 3, queue := none }] } }

/-- Whether the launch is accepted. -/
def accepted (s : State) : Bool :=
  match s.launchAt 0 with
  | some q => match s.checkLaunch q (s.launchRec q.places) 5 with
    | .ok _ _ _ _ _ images => (s.saveObjects (maskCores (s.launchRec q.places).cores) []).isSome && s.placeLaunch (s.launchRec q.places) images
    | _ => false
  | none => false

theorem test_launches :
    shown (exec (.contextCreate 0 5) (atCreate 2 0)) (fun t => (t.ctxs.length, t.host.launches.length, t.readNat 0x110000 1, t.readNat 0x110035 1)) = some (0, 0, 3, 19)
    ∧ shown (exec (.contextCreate 0 5) (atCreate 1 0)) (fun t => (t.ctxs.map fun x => (x.id, x.cols, x.lid), t.cores.map fun y => (y.core, y.ebudget))) = some ([(5, 4, 77)], [(2, 100)]) := by
  decide +kernel

theorem test_hyps_launches :
    accepted (atCreate 1 0) = true ∧ accepted (atCreate 1 (0x120000 + 2^48)) = true ∧ (atCreate 1 0).idFree 5 = true ∧ ((atCreate 2 0).launchRec (runPlaces 0x100000)).fieldsOk = false
    ∧ ((atCreate 2 0).launchRec (runPlaces 0x100000)).crec % 64 = 0 ∧ assigned ((atCreate 2 0).launchRec (runPlaces 0x100000)).crec 64 = true ∧ ((atCreate 2 0).launchRec (runPlaces 0x100000)).csig = 0 := by
  decide +kernel

/-- The context at its end, and one that is lost. -/
def ending (ph : CtxPhase) : State := { atCtl id with ctxs := [{ ctxG with phase := ph, crec := 0x110000, faults := 2, orph := 1 }] }

theorem test_ends :
    shown (exec (.launchComplete 0) (ending .resident)) (fun t => (t.ctxs.length, t.cores.length, (t.ctl 0).owner, [t.readNat 0x110000 1, t.readNat 0x110008 8, t.readNat 0x110010 8]))
      = some (0, 0, none, [3, 2, 1])
    ∧ shown (exec (.contextLost 0) (ending .lost)) (fun t => (t.ctxs.length, t.readNat 0x110000 1, t.readNat 0x110008 8, t.readNat 0x110035 1)) = some (0, 39, 3, 20)
    ∧ (ending .resident).ctxs.map (fun x => (x.csig, x.nodes)) = [(0, [])] ∧ (ending .resident).flow.seals = [] := by
  decide +kernel

/-! ### Two devices (R340 to R353), the fabric (R325 to R336), queues (R354 to R358) and management (R360 to R362) -/

/-- A request of device 2 for element 3 of the INT32 object. -/
def req (op : RemoteOp) (h fmt : Nat) (data : List Byte) : RemoteReq :=
  { dev := 2, core := 5, ctx := 1, order := 9, handle := h, op := op, fmt := fmt, x := [3, 0, 0, 0, 0, 0], rows := [0], cols := 1, data := data, v := 0, w := 0, mode := 0, dedup := 1,
    replayOf := none }

/-- The owner. -/
def owner : State := withBytes (withObjs base) 0x2000C (leBytes 4 0xFFFFFFFE)

/-- The answer that leaves. -/
def answers (i : Instr) (s : State) : Option (List (Nat × PacketBody)) := shown (exec i s) fun t => t.fabric.packets.map fun p => (p.dstDev, p.body)

theorem test_owner :
    answers (.remoteRequestAtOwner (req .read 40 6 [])) owner = some [(2, .answer 5 9 .reject)]
    ∧ answers (.remoteRequestAtOwner (req .read 11 6 [])) owner = some [(2, .answer 5 9 (.data (leBytes 4 0xFFFFFFFE)))]
    ∧ answers (.remoteRequestAtOwner (req .write 11 6 (leBytes 4 7))) owner = some [(2, .answer 5 9 .ack)]
    ∧ shown (exec (.remoteRequestAtOwner (req .write 11 6 (leBytes 4 7))) owner) (fun t => t.readNat 0x2000C 4) = some 7
    ∧ shown (exec (.remoteRequestAtOwner (req .read 10 0 [])) owner) (fun t => (t.msys.tickets.map fun k => (k.dev, k.handle, k.block), t.host.log, t.fabric.packets.length))
      = some ([(2, 10, 0)], [.residency 10 0], 1) := by
  decide +kernel

theorem test_hyps_owner :
    Asked owner (req .read 11 6 []) ints ∧ Asked owner (req .write 11 6 (leBytes 4 7)) ints ∧ Asked owner (req .read 10 0 []) sparse ∧ owner.obj? 40 = none
    ∧ IntElem owner (reqAccess (req .read 11 6 []) ints) 0x2000C 4
    ∧ (owner.missing (reqAccess (req .read 10 0 []) sparse) false).min? = some 0 ∧ owner.freeTicket sparse.homeHub = some 0 :=
  ⟨⟨⟨by decide +kernel, rfl⟩, by decide +kernel, by decide +kernel, by decide +kernel, by decide +kernel, by decide +kernel, by decide +kernel, by decide +kernel, by decide +kernel⟩,
    ⟨⟨by decide +kernel, rfl⟩, by decide +kernel, by decide +kernel, by decide +kernel, by decide +kernel, by decide +kernel, by decide +kernel, by decide +kernel, by decide +kernel⟩,
    ⟨⟨by decide +kernel, rfl⟩, by decide +kernel, by decide +kernel, by decide +kernel, by decide +kernel, by decide +kernel, by decide +kernel, by decide +kernel, by decide +kernel⟩,
    by decide +kernel, ⟨⟨_, rfl, by decide +kernel⟩, by decide +kernel, by decide +kernel, by decide +kernel, by decide +kernel, by decide +kernel⟩, by decide +kernel, by decide +kernel⟩

/-- A ticket of device 2. -/
def ticket0 : Ticket := { hub := 0, idx := 6, dev := 2, core := 5, ctx := 1, handle := 10, block := 3 }

/-- The owner with it. -/
def ticketed : State := { owner with msys := { owner.msys with tickets := [ticket0] } }

/-- The requester with the Bench's entry, whose firing has some work. -/
def atBench (b : Bench) (j : Job) : State :=
  let s := atBank (chest4 1 3 5) j 0x10000 []
  { s with msys := { s.msys with bench := [b] } }

/-- A remote store, and an atomic. -/
def storeJob : Job := .scalarStore { int3 with obj := { ints with owner := 3 } } 10 false
/-- The tile store. -/
def tileStore : Job := .store { int3 with obj := { ints with owner := 3 } }
/-- An atomic. -/
def atomJob : Job := .atomic { int3 with obj := { ints with owner := 3 } } 0 6 10 false 0

theorem test_tickets :
    shown (exec (.cancelAtOwner 2 5 1 10 3) ticketed) (fun t => t.msys.tickets.length) = some 0
    ∧ answers (.ownerRefusesService 6) ticketed = some [(2, .answer 5 0 (.refuse 6))]
    ∧ shown (exec (.ticketReceipt 0 0 17 3 1) (atBench bench7 tileStore)) (fun t => (t.msys.bench.map fun b => (b.st, b.ticket), t.msys.chest.map (·.st))) = some ([(1, 17)], [1])
    ∧ shown (exec (.ticketReceipt 0 0 17 3 1) (atBench bench7 atomJob)) (fun t => t.flow.firings.map fun f => f.outs.map (·.val)) = some [[.scalar 0 false]]
    ∧ shown (exec (.rejectAnswer 0 0) (atBench bench7 storeJob)) (fun t => (t.msys.bench.length, t.flow.seals.length)) = some (0, 1)
    ∧ shown (exec (.refuseNotice 17) (atBench { bench7 with st := 1, ticket := 17, ticketed := true } storeJob)) (fun t => (t.msys.bench.length, t.flow.seals.length)) = some (0, 1)
    ∧ shown (exec (.replayNotice 17) (atBench { bench7 with st := 1, ticket := 17, ticketed := true } storeJob)) (fun t => (t.msys.bench.map (·.st), t.fabric.packets.length)) = some ([3], 1) := by
  decide +kernel

/-- What the hypotheses on a Bench entry ask, with the invariant apart. -/
theorem benched_of {s : State} {b : Bench} {e : Chest} {f : Firing} {x : Ctx} {y : CoreCtx} (inv : s.Inv)
    (h : (s.benchOf b.core).find? (fun q => q.idx == b.idx) = some b ∧ (s.ctx? b.ctx = some x ∧ x.phase = .resident ∧ x.watch.held = none ∧ s.cctx? b.core b.ctx = some y ∧ y.part = none) ∧ b.part = none
      ∧ s.chest? b.core b.ctx b.order = some e ∧ (e.core = b.core ∧ e.ctx = b.ctx ∧ e.order = b.order ∧ e.st = 0) ∧ s.firing? b.fid = some f
      ∧ (f.core = b.core ∧ f.ctx = b.ctx ∧ f.sect = b.sect ∧ f.eng ≠ .c)) : Benched s b e f :=
  ⟨inv, h.1, ⟨x, y, h.2.1⟩, h.2.2.1, h.2.2.2.1, h.2.2.2.2.1, h.2.2.2.2.2.1, h.2.2.2.2.2.2⟩

theorem test_hyps_tickets :
    ticketed.Inv ∧ ticketed.msys.tickets.find? (fun t => t.id == 6) = some ticket0
    ∧ Benched (atBench bench7 atomJob) bench7 (chest4 1 3 5) (firing7 atomJob) ∧ Benched (atBench bench7 tileStore) bench7 (chest4 1 3 5) (firing7 tileStore)
    ∧ (let b : Bench := { bench7 with st := 1, ticket := 17, ticketed := true }
       Benched (atBench b storeJob) b (chest4 1 3 5) (firing7 storeJob) ∧ (firing7 storeJob).job.access?.isSome = true
         ∧ (atBench b storeJob).msys.bench.find? (fun q => q.ticketed && q.ticket == b.ticket && (q.st == 1 || q.st == 2 || q.st == 3)) = some b
         ∧ (∀ q ∈ (atBench b storeJob).msys.bench, q.noticed b.core b.ctx b.owner b.ticket = true → q = b)) :=
  ⟨⟨by decide +kernel, rfl⟩, by decide +kernel, benched_of (x := ctxG) (y := part0) ⟨by decide +kernel, rfl⟩ (by decide +kernel),
    benched_of (x := ctxG) (y := part0) ⟨by decide +kernel, rfl⟩ (by decide +kernel),
    benched_of (x := ctxG) (y := part0) ⟨by decide +kernel, rfl⟩ (by decide +kernel), by decide +kernel, by decide +kernel⟩

/-- A packet with a token for a device. -/
def packet (src dst : Nat) : Packet :=
  { srcDev := src, srcCore := 0, ctx := 0, dstDev := dst, hops := 0, cls := 0, poison := false, body := .token (inNet (vTok 0 1)), since := 0, promoted := false }

/-- Port 3 in some state, a route to device 2 through it, and packets. -/
def atFabric (p : Port) (ps : List Packet) : State :=
  { arriving [] with fabric := { base.fabric with ports := base.fabric.ports.set 3 p, routes := [(2, 0x80000463)], packets := ps } }

/-- A running port. -/
def runPort : Port := { Port.reset with st := .run, keys := true, spdm := .established, attested := 2, peer := 2 }

/-- A group of one data flit and its tag: SEQ 0 and 1, HOP 1, bodies 5 and 0, and CRC-32C of the other 60 bytes. -/
def group2 : List (BitVec 512) :=
  [0xc4e37832000008000000000000000000000000000000000000000000000000000000000000000000000000000000000000000000000000000000000000000005,
   0xb69d235a000148000000000000000000000000000000000000000000000000000000000000000000000000000000000000000000000000000000000000000000]

/-- What port 3 shows. -/
def portAfter {α : Type} (i : Instr) (p : Port) (g : Port → α) : Option (Option α) := shown (exec i (atFabric p [])) fun t => (t.port? 3).map g

theorem test_fabric :
    shown (exec (.fabricPacketForward 0) (atFabric runPort [packet 4 0])) (fun t => (t.flow.net.map (·.fromDev), t.fabric.packets.map (·.dstDev))) = some ([some 4], [4])
    ∧ shown (exec (.fabricPacketForward 0) (atFabric runPort [packet 0 9])) (fun t => (t.ctxs.map (·.phase), t.host.log)) = some ([.lost], [.fabricError 9])
    ∧ shown (exec (.undeliverableNotice 0) base) (fun t => t.ctxs.map (·.phase)) = some [.lost]
    ∧ shown (exec (.promotionThresholdSet 4 100) base) (fun t => (t.threshold 4, t.threshold 5)) = some (100, 1024)
    ∧ shown (exec (.packetAgePromotion 1) { atFabric runPort [packet 0 2, packet 4 2] with ck := 1024 }) (fun t => t.fabric.packets.map fun p => (p.srcDev, p.promoted)) =
      some [(0, false), (4, true)] := by
  decide +kernel

theorem test_ports :
    portAfter (.flitGroupReceive 3 [0x1]) runPort (fun q => (q.discardTo, q.out)) = some (some (some 0, [ctlFlit (ctlBody 2 0)]))
    ∧ portAfter (.ack 3 0) { runPort with replay := group2 } (fun q => q.replay.length) = some (some 1)
    ∧ portAfter (.nack 3 0) { runPort with replay := group2 } (fun q => q.out.length) = some (some 2)
    ∧ portAfter (.ack 3 9) { runPort with replay := group2 } (fun q => q.out) = some (some [ctlFlit (ctlBody 6 0)])
    ∧ portAfter (.idle 3) runPort id = some (some runPort)
    ∧ portAfter (.keysw 3 1) { runPort with pendingUpdate := true } (fun q => (q.rxGen, q.rxOld)) = some (some (1, some 0))
    ∧ portAfter (.keyGenerationErase 3 true) { runPort with txOld := some 0, txNew := 1024 } (·.txOld) = some (some none)
    ∧ portAfter (.retrain 3 false) runPort (fun q => (q.failRow, q.st)) = some (some (1, .run))
    ∧ portAfter (.retrain 3 false) { runPort with failRow := 2 } (fun q => (q.st, q.keys)) = some (some (.error, false)) := by
  decide +kernel

/-- The acknowledged packets of device 2 with its route pending. -/
def atAck : State := { base with fabric := { base.fabric with unacked := [(2, 3)], routePend := [(2, 0x80000463)] } }

theorem test_hyps_fabric :
    (atFabric runPort [packet 4 0]).Inv ∧ (atFabric runPort [packet 4 0]).flowFirst 0 (packet 4 0) = true ∧ (atFabric runPort []).refuses 4 (inNet (vTok 0 1)) = false
    ∧ (atFabric runPort [packet 0 2]).portHead 3 runPort = some 0 ∧ runPort.forming.length < 7 ∧ (packet 0 9).srcDev = base.devId
    ∧ ((atFabric runPort []).route 9).getLsbD 31 = false ∧ (atFabric runPort []).route 2 = 0x80000463 ∧ (atFabric runPort []).port? 3 = some runPort
    ∧ (packet 0 2).hops + ((0x80000463 : BitVec 32).extractLsb' 10 4).toNat ≤ 8 ∧ ((0x80000463 : BitVec 32).extractLsb' 0 5).toNat = 3
    ∧ shown (exec (.fabricAck 2 3) atAck) (fun t => (t.route 2, t.fabric.unacked)) = some (0x80000463, [])
    ∧ group2.all flitOk = true ∧ groupShape group2 = true ∧ flitSeq (group2.headD 0) = runPort.rxSeq ∧ runPort.rxGen % 4 = flitKgen (group2.headD 0)
    ∧ flitOk 0x1 = false ∧ base.fabric.ports.length = 18 :=
  ⟨⟨by decide +kernel, rfl⟩, by decide +kernel⟩

theorem test_fence :
    let s : State := { base with fabric := { base.fabric with pkg := [{ die := 0, hub := 0, failRow := 2, fenced := false }] } }
    ((s.fabric.pkg.find? fun q => q.die == 0 && q.hub == 0).map fun q => (q.fenced, q.failRow)) = some (false, 2)
    ∧ shown (exec (.retrain 18 false) s) (fun t => t.ctxs.map (·.phase)) = some [.lost] := by
  decide +kernel

/-- A message of SPDM 1.2 with what the device accepts. -/
def spdm : SpdmMsg := { dev := 2, minor := 2, baseAsym := 0, extAsym := [(0x03, 0, 0x5A01)], hashSha256 := true, measSha256 := true, aeadAesGcm := true, dheP384 := true, bytes := [] }

theorem test_spdm :
    portAfter (.getVersion 3 spdm) Port.reset (·.spdm) = some (some .version) ∧ portAfter (.getCapabilities 3 spdm) { Port.reset with spdm := .version } (·.spdm) = some (some .capabilities)
    ∧ portAfter (.negotiateAlgorithms 3 spdm) { Port.reset with spdm := .capabilities } (·.spdm) = some (some .algorithms)
    ∧ portAfter (.getCapabilities 3 { spdm with minor := 1 }) { Port.reset with spdm := .version } (·.spdm) = some (some .version)
    ∧ portAfter (.keyUpdate 3 spdm) runPort (fun q => (q.pendingUpdate, q.txGen, q.txOld)) = some (some (true, 1, some 0))
    ∧ portAfter (.keyUpdate 3 spdm) { runPort with txOld := some 0 } (·.txGen) = some (some 0)
    ∧ portAfter (.endSession 3 spdm) runPort (fun q => (q.spdm, q.keys)) = some (some (.none, true))
    ∧ portAfter (.pskExchange 3 spdm) Port.reset (·.spdm) = some (some .none) := by
  decide +kernel

/-- The device that has asked the k-th of its own requests on port 3. -/
def asked (k : Nat) (r : Option SpdmMsg) : State := { atFabric { Port.reset with asking := some k } [] with sched := [.spdmResponse 3 r] }

theorem test_spdm_responses :
    shown (step (asked 2 (some { spdm with minor := 3 }))) (fun t => (t.port? 3).map (·.asking)) = some (some (some 3))
    ∧ shown (step (asked 2 (some { spdm with dheP384 := false }))) (fun t => (t.port? 3).map fun q => (q.asking, q.failed)) = some (some (none, true))
    ∧ shown (step (asked 8 none)) (fun t => (t.port? 3).map fun q => (q.asking, q.failed)) = some (some (none, true)) := by
  decide +kernel

/-- Management brings block 0 of the sparse object to 0x200000. -/
def serving : State :=
  { owner with boot := { owner.boot with phase := .running }, host := { owner.host with backing := [{ handle := 10, block := 0, bytes := [1, 2] }] }
               msys := { owner.msys with tickets := [{ ticket0 with block := 0 }] }, sched := [.serve 10 0 0x200000] }

theorem test_serve :
    shown (step serving) (fun t => (t.readNat 0x60000 8, t.readNat 0x200000 2, t.fabric.packets.map fun p => (p.dstDev, p.body))) =
      some (2^62 + 0x200000, 0x201, [(2, .answer 5 0 (.replay 6))])
    ∧ serving.obj? 10 = some sparse ∧ sparse.blocks = 2 ∧ serving.hubBusy 10 = false ∧ entryRejected serving.devId sparse (BitVec.ofNat 64 (2^62 + 0x200000)) = false
    ∧ entryPresent (serving.readWord sparse.base) = false ∧ serving.serves .faults = true := by
  decide +kernel

/-- Queue 1 of 16 entries at 0x140000 in slot 2, whose doorbell stands one past the accepted entries. -/
def queue1 : UserQueue := { UserQueue.blank 1 with size := 4, prio := 2, base := 0x140000, slot := 2, dbell := 1 }

/-- The running device with a queue whose next entry is given. -/
def atHostQueue (u : UserQueue) (entry : List Byte) : State :=
  let s := withBytes State.reset (u.base + 64) entry
  { s with boot := { s.boot with phase := .running }, host := { s.host with queues := [u] } }

/-- An entry of sequence number 1 and a kind, for the record at 0x100000. -/
def entryOf (kind : Nat) : List Byte := leBytes 8 (1 + kind * 2^32) ++ leBytes 8 0x100000 ++ leBytes 48 0

theorem test_queues :
    shown (exec (.doorbell 1 5) (atHostQueue { queue1 with slot := 64 } [])) (fun t => (t.queue 1).dbell) = some 5
    ∧ shown (exec (.doorbell 1 5) (atHostQueue { queue1 with slot := 64 } [])) (fun t => (t.queue 1).pend) = some true
    ∧ shown (exec (.queueSlotMap 1 7) (atHostQueue { queue1 with pend := true } [])) (fun t => ((t.queue 1).slot, (t.queue 1).pend)) = some (7, false)
    ∧ shown (exec (.queueSlotMap 1 64) (atHostQueue queue1 [])) (fun t => (t.queue 1).slot) = some 64
    ∧ shown (exec (.bar2Access 0x150000 [1, 2]) (atHostQueue queue1 [])) (fun t => (t.readNat (t.host.bar2 + 0x150000) 2)) = some 0x201
    ∧ shown (exec (.queueEntryAccept 1) (atHostQueue queue1 (entryOf 0))) (fun t => (t.host.launches.map fun l => (l.places, l.cap), (t.queue 1).lacc)) = some ([(runPlaces 0x100000, 2)], 1)
    ∧ shown (exec (.queueEntryAccept 0) (atHostQueue { queue1 with q := 0 } (entryOf 1))) (fun t => t.host.requests) = some [(0x100000, some (0, 1))]
    ∧ shown (exec (.queueEntryAccept 1) (atHostQueue queue1 (entryOf 1))) (fun t => ((t.queue 1).rjwhy, (t.queue 1).lrej, (t.queue 1).lcmp)) = some (2, 1, 1)
    ∧ shown (exec (.bar0OtherWrite (0x40000 + 8) 5) (atHostQueue queue1 [])) (fun t => (t.queue 1).dbell) = some 5
    ∧ shown (exec (.queueEntryAccept 1) (atHostQueue queue1 (leBytes 64 9))) (fun t => ((t.queue 1).stopped, (t.queue 1).lacc)) = some (true, 0)
    ∧ shown (exec (.doorbell 1 1) (atHostQueue { queue1 with stopped := true } [])) (fun t => (t.queue 1).stopped) = some false
    ∧ leNat ((atHostQueue { queue1 with lacc := 7, rjwhy := 3 } []).bar0Read 64 64) = 3 * 2^232 + 2 * 2^192 + 2 * 2^190 + 4 * 2^184 + 0x140000 * 2^128 + 2^96 + 7 * 2^32 := by
  decide +kernel

/-- Queue 2, due too, at a higher level. -/
def queue2 : UserQueue := { queue1 with q := 2, prio := 3, slot := 3 }

theorem test_queue_levels :
    let s : State := { atHostQueue queue1 (entryOf 0) with host := { (atHostQueue queue1 (entryOf 0)).host with queues := [queue1, queue2] } }
    queue2.due = true ∧ s.queueLevel queue1 < s.queueLevel queue2 ∧ shown (exec (.queueEntryAccept 1) s) (fun t => decide (t = s)) = some true
    ∧ shown (exec (.queueEntryAccept 2) s) (fun t => t.host.launches.length) = some 1 := by
  decide +kernel

theorem test_hyps_queues :
    (atHostQueue queue1 (entryOf 0)).Inv ∧ (atHostQueue queue1 (entryOf 0)).host.queues.find? (fun w => w.q == 1) = some queue1 ∧ (queue1.dbell - queue1.lacc).toNat = 1
    ∧ queue1.stopped = false ∧ (atHostQueue queue1 (entryOf 0)).queueFirst queue1 = true
    ∧ assigned ((atHostQueue queue1 []).host.bar2 + 0x150000) 2 = true ∧ assigned 0x100000 1 = true
    ∧ BitVec.ofNat 512 ((atHostQueue queue1 (entryOf 0)).readNat (queue1.base + 64 * ((queue1.lacc + 1).toNat % 2^queue1.size)) 64) = BitVec.ofNat 512 (leNat (entryOf 0)) :=
  ⟨⟨by decide +kernel, rfl⟩, by decide +kernel⟩

/-- A management request of an operation with arguments at 0x100000, over the running control core's state. -/
def asking (op : Nat) (args : List Nat) : State :=
  let s := withBytes (atFabric Port.reset []) 0x100000 (leBytes 8 op ++ leBytes 8 0 ++ args.flatMap (leBytes 8))
  { s with boot := { s.boot with phase := .running }, host := { s.host with requests := [(0x100000, none)], queues := [{ queue1 with dbell := 0 }] } }

/-- STATUS after the event. -/
def status (i : Instr) (s : State) : Option Nat := shown (exec i s) fun t => t.readNat 0x100008 8

theorem test_management :
    status .admitStream (asking 0 []) = some (2^63 + 5 * 4096)
    ∧ shown (exec .admitStream (asking 1 [2^17 + 2^21, 2^63 + 3])) (fun t => t.host.streams.map fun q => (q.core, q.id, q.entries)) = some [(0, 1, [0])]
    ∧ shown (exec .removeExecute (asking 4 [0])) (fun t => (t.ctl 0).exec) = some 0
    ∧ status .makePageExecutable (asking 3 [1]) = some (2^63 + 4096)
    ∧ shown (exec .attachDolz (asking 5 [0])) (fun t => t.ctxs.map (·.dolz)) = some [true] ∧ shown (exec .detachDolz (asking 6 [0])) (fun t => t.ctxs.map (·.dolz)) = some [false]
    ∧ shown (exec .writeRouteEntries (withBytes (asking 7 [7 + 2^18, 0x150000]) 0x150000 (leBytes 4 0x80000463))) (fun t => t.route 7) = some 0x80000463
    ∧ shown (exec .portBringUp (asking 8 [3, 2])) (fun t => (t.port? 3).map (·.asking)) = some (some (some 0)) ∧ shown (exec .moveBar2Window (asking 9 [2^36])) (fun t => t.host.bar2) = some (2^36)
    ∧ shown (exec .createUserQueue (asking 10 [9 + 4 * 2^12 + 2^17, 0x160000])) (fun t => ((t.queue 9).size, (t.queue 9).prio, (t.queue 9).base)) = some (4, 1, 0x160000)
    ∧ shown (exec .removeUserQueue (asking 10 [1])) (fun t => (t.queue 1).size) = some 0 := by
  decide +kernel

theorem test_fenced_service :
    let s : State := { asking 5 [0] with host := { (asking 5 [0]).host with fenced := [.dolz] } }
    opService 5 = some .dolz ∧ s.serves .dolz = false ∧ status .attachDolz s = some (2^63 + 5 * 4096) := by
  decide +kernel

theorem test_management_of_ports :
    shown (exec .portStart { asking 8 [3 + 2^5, 0] with fabric := (atFabric { runPort with st := .locked, peerLocked := true } []).fabric }) (fun t => (t.port? 3).map (·.st)) = some (some .run)
    ∧ shown (exec .portStart { asking 8 [3 + 2^5, 0] with fabric := (atFabric { runPort with st := .locked, peerLocked := true, peer := 3 } []).fabric }) (fun t => (t.port? 3).map (·.st)) = some (some .error)
    ∧ shown (exec .portStart { asking 8 [3 + 2^5, 0] with fabric := (atFabric { runPort with st := .locked } []).fabric }) (fun t => ((t.port? 3).map (·.st), t.readNat 0x100008 8)) =
      some (some .locked, 2^63 + 8 * 4096 + 1)
    ∧ shown (exec .portStop { asking 8 [3 + 2 * 2^5, 0] with fabric := (atFabric runPort []).fabric }) (fun t => (t.port? 3).map fun q => (q.st, q.keys)) = some (some (.unlocked, false))
    ∧ shown (exec .portBringUp { asking 8 [3, 2] with fabric := (atFabric { Port.reset with failed := true } []).fabric }) (fun t => ((t.port? 3).map (·.failed), t.readNat 0x100008 8)) =
      some (some false, 2^63 + 7 * 4096)
    ∧ shown (exec .portBringUp { asking 8 [3, 2] with fabric := (atFabric { runPort with st := .unlocked } []).fabric }) (fun t => (t.port? 3).map fun q => (q.st, q.enable)) =
      some (some (.locked, true)) := by
  decide +kernel

/-- The request in that state. -/
def request (op : Nat) (args : List Nat) : MgmtReq :=
  { addr := 0x100000, entry := none, op := op, zero := true, args := (List.range 6).map fun k => BitVec.ofNat 64 (args.getD k 0) }

theorem test_hyps_management :
    Requested (asking 1 [2^17 + 2^21, 2^63 + 3]) (request 1 [2^17 + 2^21, 2^63 + 3]) 1 ∧ (request 1 [2^17 + 2^21, 2^63 + 3]).streamBad true = none
    ∧ (request 2 [2^17 + 2^21, 2^63 + 3]).streamBad false = none ∧ Requested (asking 3 [0]) (request 3 [0]) 3 ∧ Requested (asking 10 [1]) (request 10 [1]) 10
    ∧ RestZero (request 3 [0]) 1 ∧ argField (request 8 [3 + 2^5, 0]) 0 5 3 = 1 ∧ (asking 0 []).request.map (fun r => (r.op, r.zero)) = some (0, true)
    ∧ routeOk 0x80000463 = true ∧ routeOk 0 = false :=
  ⟨⟨⟨by decide +kernel, rfl⟩, by decide +kernel, rfl, by decide +kernel, by decide +kernel, by decide, fun _ _ => rfl⟩, by decide +kernel, by decide +kernel,
    ⟨⟨by decide +kernel, rfl⟩, by decide +kernel, rfl, by decide +kernel, by decide +kernel, by decide, fun _ _ => rfl⟩, ⟨⟨by decide +kernel, rfl⟩, by decide +kernel, rfl, by decide +kernel, by decide +kernel, by decide, fun _ _ => rfl⟩,
    by unfold RestZero; decide +kernel, by decide +kernel⟩

/-- A launch record that the loader fills in, with its counter in hub 0. -/
def launch1 : GraphLaunch := { addr := 0x100000, crec := 0x110000, handle := 0x30, base := 0x800000000000 }

/-- The running device. -/
def running : State := { State.reset with boot := { State.reset.boot with phase := .running } }

theorem test_loader_launch :
    GraphLaunch.placed launch1 = true ∧ running.stateNow launch1.handle = 0 ∧ (running.installObjs 255 [] [(BitVec.ofNat 64 launch1.handle, signalRecord running.devId launch1.base)]).isSome = true
    ∧ shown (exec (.imageLoad { writes := [], objs := [], launches := [launch1], backing := [] }) running) (fun t =>
        (t.host.loaded, t.readNat 0x100008 8, t.readNat 0x100030 8, t.readNat 0x100038 8, t.host.log)) =
      some (1, 2^32 + 1, 0x110000, 0x30, [.loaded (BitVec.ofNat 64 (2^32 + 1)) 0x110000 0x30])
    ∧ (let s : State := { running with msys := { running.msys with objs := [(0x30, counters)] } }
       s.stateNow launch1.handle ≠ 0 ∧ shown (exec (.imageLoad { writes := [], objs := [], launches := [launch1], backing := [] }) s) (fun t => decide (t = s)) = some true) := by
  decide +kernel

theorem test_boot_and_loader :
    shown (exec .deviceBoot State.reset) (fun t => decide (t.boot.phase = .recovery)) = some true
    ∧ shown (exec (.recoveryImageAccept 0 { version := 3, bytes := [] }) { State.reset with boot := { State.reset.boot with phase := .recovery } }) (fun t => t.boot.slots.map fun q => (q.1, q.2.version))
      = some [(0, 3)]
    ∧ shown (exec .rollbackAdvance { State.reset with boot := { State.reset.boot with phase := .running, version := 4 } }) (fun t => (t.boot.rollback, t.boot.started)) = some (4, true)
    ∧ shown (exec (.imageLoad { writes := [(0x100000, [1, 2])], objs := [], launches := [], backing := [] }) { State.reset with boot := { State.reset.boot with phase := .running } }) (fun t => t.readNat 0x100000 2) = some 0x201
    ∧ shown (exec (.managementSetsWindows 0 64 4096) base) (fun t => t.ctxs.map fun x => (x.agewin, x.dlwin)) = some [(64, 4096)] := by
  decide +kernel

/-! ### The whole machine -/

/-- A control core at its turn, with ADDI g5 := g1 + 12 at 0x100. -/
def atTurn : State := { withBytes (atCtl id) (coreKey 0 0x100) (leBytes 4 0x08A1000C) with sched := [.control 0] }

theorem test_step : shown (step atTurn) (fun t => ((t.ctl 0).reg 5, (t.ctl 0).pc, t.sched)) = some (19, 0x104, []) := by
  decide +kernel

theorem test_hyps_step :
    MayRun atTurn 0 ∧ inExecPage (atTurn.ctl 0) (atTurn.ctl 0).pc = true ∧ atTurn.ecc = [] ∧ WordAt atTurn (coreKey 0 0x100) 0x08A1000C
    ∧ decodeControl 0x08A1000C = some (.addImm 5 1 12) :=
  ⟨⟨by decide +kernel, ⟨0, ctx0, by decide +kernel⟩, by decide +kernel, by decide +kernel, .inr (by decide +kernel), .inr (by decide +kernel)⟩, by decide +kernel, by decide +kernel,
    by unfold WordAt; decide +kernel, by decide +kernel⟩

/-- S at its turn, with PASS in the ready order. -/
def atIssue : State :=
  { flowing base (fun w => { w with slots := [slotOf (.pass a12) 0 0], ready := [{ waiter with eng := .m, since := 0, ck := 0 }] }) with sched := [.issue 0 .m] }

theorem test_hyps_issue :
    (let s : State := { atIssue with sched := [] }
     s.choice 0 .m = some (0, .entry { waiter with eng := .m, since := 0, ck := 0 }) ∧ s.pickSlot (.entry { waiter with eng := .m, since := 0, ck := 0 }) = some (slotOf (.pass a12) 0 0))
    ∧ ({ waiter with eng := .m, since := 0, ck := 0 } : Ready).breaks (slotOf (.pass a12) 0 0) = false ∧ ({ waiter with eng := .m, since := 0, ck := 0 } : Ready).allEos (slotOf (.pass a12) 0 0) = false
    ∧ decodeOperator (slotOf (.pass a12) 0 0).word = some (.pass a12)
    ∧ shown (step atIssue) (fun t => (t.flow.ready.length, t.flow.firings.map (·.op))) = some (0, [0x91]) := by
  decide +kernel

theorem test_hyps_whole_machine :
    atTurn.Inv ∧ (∀ c ∈ atTurn.ctls, c.pc.toNat % 4 = 0 ∧ c.epc.toNat % 4 = 0 ∧ c.tvec.toNat % 4 = 0 ∧ c.lstart.toNat % 4 = 0 ∧ c.lend.toNat % 4 = 0)
    ∧ (∀ y ∈ atTurn.cores, y.part = none) ∧ (Instr.add 5 6 7).wf = true ∧ (encode (.add 5 6 7)).isSome = true :=
  ⟨⟨by decide +kernel, rfl⟩, by decide +kernel⟩

/-! ### What single clauses ask: control cores and commands (R93, R109, R111, R236 to R241, R299, R303) -/

/-- Two seals and one notice of TRAPO wait. -/
def atTwoSeals (code : Word) (ie : Word) : State :=
  atCtl fun c => { c with status := ie + code * 0x100000000, seals := [(2, 8), (1, 8)], trapos := [77] }

theorem test_async_pend :
    shown (exec (.asyncTrapEntry 0) (atTwoSeals 2 4)) (fun t => ((t.ctl 0).status.getLsbD 33, (t.ctl 0).seals)) = some (true, [(1, 8)])
    ∧ shown (exec (.asyncTrapEntry 0) (atTwoSeals 4 4)) (fun t => ((t.ctl 0).status.getLsbD 34, (t.ctl 0).trapos)) = some (false, [])
    ∧ shown (exec (.asyncTrapEntry 0) (atTwoSeals 7 0)) (fun t => decide (t.ctl 0 = (atTwoSeals 7 0).ctl 0)) = some true
    ∧ ((atTwoSeals 7 0).ctl 0).ie = false ∧ ((atTwoSeals 2 4).ctl 0).ie = true ∧ ((atTwoSeals 2 4).ctl 0).status.getLsbD 33 = true := by
  decide +kernel

/-- A block at the end of private SRAM, which it would leave. -/
def atEdge : State := withBytes (atCtl fun c => c.setReg 4 0x1FFE0) (coreKey 0 0x1FFE0) (leBytes 8 0x10200802)

/-- A block with an ECC error at its third granule of 8 bytes. -/
def atBadBlock : State := { atBlock 0x10200802 with ecc := [coreKey 0 0x2012] }

theorem test_gload_now_and_traps :
    shown (exec (.gload 5 4) (atSwitch false .none)) (fun t => ((t.ctl 0).reg 5, (t.slot? 0 0 .s 0).map (·.sect), (t.cctx? 0 0).map fun y => y.sects.map (·.spent)))
      = some (0, some 0, some [false, true])
    ∧ trapAfter (.gload 5 4) atBadBlock = some (7, 0x100, 0x2010, 0x400) ∧ (trapAfter (.gload 5 4) atEdge).map (·.1) = some 5 := by
  decide +kernel

theorem test_hyps_gload_now_and_traps :
    (let s := atSwitch false .none
     let b := s.ctlBlock s.running 0x2000
     s.blockReject 0 0 b = none ∧ b.sw = true ∧ s.inProgress 0 0 (s.switched 0 0 b) = false)
    ∧ MayTouchAll atBadBlock.running false 0x2000 (blockSize (leWord (atBadBlock.ctlRead atBadBlock.running 0x2000 8)))
    ∧ Marked atBadBlock atBadBlock.running 0x2000 (blockSize (leWord (atBadBlock.ctlRead atBadBlock.running 0x2000 8))) (coreKey 0 0x2012)
    ∧ MayTouchAll atEdge.running false 0x1FFE0 8 ∧ ¬ MayTouchAll atEdge.running false 0x1FFE0 (blockSize (leWord (atEdge.ctlRead atEdge.running 0x1FFE0 8))) := by
  unfold MayTouchAll Marked
  decide +kernel

/-- INJ of the tile of record 1 to core 0 or 1, both of the partition. -/
def atTileInj (core : Word) : State :=
  { putTile (atCtl fun c => (((c.setReg 8 (0x400 + core)).setReg 9 0).setReg 10 (tokOf 0 1 four).w0).setReg 11 0) 1 four with ctxs := [{ ctx0 with part := 3 }] }

theorem test_inject_tile :
    shown (exec (.inj 8) (atTileInj 0)) (fun t => (t.flow.allocs.map (·.refs), t.flow.net.map fun q => q.body.isSome)) = some ([2], [false])
    ∧ shown (exec (.inj 8) (atTileInj 1)) (fun t => (t.flow.allocs.map (·.refs), t.flow.net.map (·.body))) = some ([1], [some four.bytes])
    ∧ [0, 1].all (fun c => decide (injectReason (atTileInj c) 0 0 false (0x400 + c) 0 (tokOf 0 1 four).w0 0 = none)) = true := by
  decide +kernel

/-- What ORSET, ORINV, ORMOV and ORRES of a handle answer. -/
def answerOf (i : Instr) (s : State) : Option Nat := shown (exec i s) fun t => t.readNat (coreKey 0 0x2040) 8

/-- ORSET of handle 20, which has that record already but for its permissions. -/
def atUpdate : State :=
  let s := atCommand 20 0 0 0 recordBytes
  { s with msys := { s.msys with objs := s.msys.objs ++ [(20, { ObjRec.ofBits (BitVec.ofNat 1024 (leNat recordBytes)) with perm := 0, gen := 7, igen := 7 })] } }

theorem test_command_reasons :
    answerOf (.orset 1 2) (atCommand 20 0 0 0 ((leBytes 8 0x7F) ++ recordBytes.drop 8)) = some 0x3000
    ∧ answerOf (.orset 1 2) (atCommand 5 0 0 0 recordBytes) = some 0x4001 ∧ answerOf (.orset 1 2) (atCommand 20 64 0 0 recordBytes) = some 0x6000
    ∧ answerOf (.orinv 1 2) (atCommand 5 64 0 0 []) = some 0x6000 ∧ answerOf (.orinv 1 2) (atCommand 20 0 0 0 []) = some 0x4000
    ∧ answerOf (.ormov 1 2) (atCommand 10 0 0x200000 0 []) = some 0x4002 ∧ answerOf (.ormov 1 2) (atCommand 5 0 1 0 []) = some 0x5000
    ∧ answerOf (.ormov 1 2) (atCommand 5 64 0x200000 0 []) = some 0x6000
    ∧ shown (exec (.orset 1 2) atUpdate) (fun t => (t.readNat (coreKey 0 0x2040) 8, (t.obj? 20).map fun r => (r.gen, r.perm == (ObjRec.ofBits (BitVec.ofNat 1024 (leNat recordBytes))).perm))) = some (0, some (7, true)) := by
  decide +kernel

theorem test_orres_reasons :
    answerOf (.orres 1 2) (atCommand 10 0 0 0 []) = some 0x5000 ∧ answerOf (.orres 1 2) (atCommand 10 0 0 65 []) = some 0x5000
    ∧ answerOf (.orres 1 2) (atCommand 5 0 0 1 []) = some 0x4001 ∧ answerOf (.orres 1 2) (atCommand 10 0 1 2 []) = some 0x5000
    ∧ answerOf (.orres 1 2) (atCommand 10 0 0 2 (leBytes 8 0 ++ leBytes 8 0x4000000000000001)) = some 0x5001
    ∧ answerOf (.orres 1 2) (atCommand 10 64 0 2 (leBytes 16 0)) = some 0x6000
    ∧ shown (exec (.orres 1 2) (atCommand 10 (8 + 2 * 2^24) 0 2 (leBytes 16 0))) (fun t => (t.readNat 0x800300000050 8, t.msys.hub.length)) = some (1, 0) := by
  decide +kernel

/-- A load that has read the map's first entry is outstanding. -/
def atReader : State :=
  let s := atCommand 10 (8 + 2 * 2^24) 0 2 (leBytes 16 0)
  let t : Access := mkAccess part0 (slotOf (.tld ao) 10 0) 10 sparse [0, 0, 0, 0, 0, 0] [0, 1] 1 0 0
  { s with msys := { s.msys with chest := [{ chest4 0 0 10 with row := 1, cell := 1 }] }, flow := { s.flow with firings := [firing7 (.load t)] } }

theorem test_orres_readers :
    shown (exec (.orres 1 2) atReader) (fun t => (t.readNat 0x800300000050 8, t.msys.hub.map fun q => (q.performed, q.readers.length))) = some (0, [(true, 1)])
    ∧ atReader.mapReaders 10 0 2 = [(0, 0, 4)] ∧ (atCommand 10 (8 + 2 * 2^24) 0 2 (leBytes 16 0)).mapReaders 10 0 2 = []
    ∧ (atCommand 10 (8 + 2 * 2^24) 0 2 (leBytes 16 0)).counterWordOk 0 (8 + 2 * 2^24) = true ∧ (atCommand 10 64 0 2 []).counterWordOk 0 64 = false
    ∧ CommandAt (atCommand 10 0 0 0 []) 0x2040 64 :=
  ⟨by decide +kernel, by decide +kernel, by decide +kernel, by decide +kernel, by decide +kernel,
    ⟨by decide +kernel, by decide, by unfold MayTouchAll; decide +kernel, by unfold MayTouchAll; decide +kernel, by decide +kernel⟩⟩

theorem test_tagless_launch :
    (atLaunch 16 .none).host.ctxLaunches.length = 16 ∧ ((atLaunch 16 .none).host.ctxLaunches.filter fun q => q.1 == 0 && !q.2.ended).length = 16
    ∧ (let s := atLaunch 16 .none
       let t : State := { s with host := { s.host with ctxLaunches := s.host.ctxLaunches.map fun q => (q.1, { q.2 with ended := true }) } }
       shown (exec (.lnch 5 1) t) (fun u => ((u.ctl 0).reg 5, u.host.ctxLaunches.length)) = some (0x4D00000000, 17)) := by
  decide +kernel

/-! ### Sends (R28, R66, R67, R316, R317) -/

/-- A firing with one result for code c, over given destination entries. -/
def atCarry (c : Nat) (entry : Word) : State :=
  flowing (withObjs base) fun w => { w with slots := [slotOf (.pass a12) 0 0], dests := [{ toV sending.eng 1 with entry := entry }],
                                            firings := [{ sending with freeCol := none, outs := [{ codes := [c, 0], val := .scalar 7 false, col := 1, tag := 5 }] }] }

/-- The same with members 0 and 1 in its group 1, which leaves the sender out or not. -/
def atCast (excl : BitVec 256) : State :=
  let s := atCarry 1 (0xC000000000200000 + 0x2000)
  { s with ctxs := s.ctxs.map fun x => { x with groups := [(1, 3)], excl := excl, part := 3 } }

theorem test_sends_elsewhere :
    shown (exec (.firingResultSend 3) (atCarry 127 0)) (fun t => t.flow.net.map fun q => (q.tok.eng, q.tok.w0)) = some [(.c, 7)]
    ∧ shown (exec (.firingResultSend 3) (atCarry 1 (0x8000000000000000 + 2 * 2^44))) (fun t => (t.flow.net.length, t.fabric.packets.map fun p => [p.dstDev, p.cls])) = some (0, [[2, 2]])
    ∧ shown (exec (.firingResultSend 3) (atCast 0)) (fun t => t.flow.net.map fun q => q.tok.core) = some [0, 1]
    ∧ shown (exec (.firingResultSend 3) (atCast 2)) (fun t => t.flow.net.map fun q => q.tok.core) = some [1]
    ∧ shown (exec (.firingResultSend 3) (atCarry 1 0)) (fun t => (t.flow.net.length, t.ctxs.map (·.orph), t.flow.seals.map (·.2.2))) = some (0, [1], [11])
    ∧ shown (exec (.firingResultSend 3) (atCarry 1 0xC000000000204000)) (fun t => (t.flow.net.length, t.flow.seals.map (·.2.2))) = some (0, [12])
    ∧ shown (exec (.firingResultSend 3) (flowing (atCast 0) fun w => { w with foreign := [(0, 1)] })) (fun t => (t.ctxs.map (·.orph), t.flow.seals.map (·.2.2))) = some ([1], [13]) := by
  decide +kernel

/-- A debug operator's firing whose result has been sent already, with `dolz` attached or not. -/
def atDebugOp (op : Nat) (dolz : Bool) : State :=
  let s := flowing (atCtl id) fun w => { w with
    slots := [{ slotOf (.pass a12) 0 0 with lit0 := 0xA000000000000104 }], firings := [{ sending with op := op, freeCol := none, outs := [] }] }
  { s with ctxs := [{ ctx0 with dolz := dolz, saveBase := [(0, 0x300000)] }] }

theorem test_debug_done :
    shown (exec (.firingResultSend 3) (atDebugOp 0xA4 false)) (fun t => ((t.ctl 0).cmps.getD 1 (false, 0))) = some (true, 0x41)
    ∧ shown (exec (.firingResultSend 3) (atDebugOp 0xA5 true)) (fun t => (t.cores.map (fun y => y.stops.map (·.reason)), t.ctxs.map (·.watch.held), t.host.log.length)) = some ([[4]], [some 0], 1)
    ∧ shown (exec (.firingResultSend 3) (atDebugOp 0xA5 false)) (fun t => (t.cores.map (fun y => y.stops.length), t.ctxs.map (·.watch.held))) = some ([0], [none])
    ∧ shown (exec (.firingResultSend 3) (atDebugOp 0xA6 true)) (fun t => t.ctxs.map fun x => x.causes.map (·.kind)) = some [[0]]
    ∧ shown (exec (.firingResultSend 3) (atDebugOp 0xA6 false)) (fun t => t.ctxs.map fun x => x.causes.length) = some [0]
    ∧ ({ sending with op := 0xA4, freeCol := none, outs := [] } : Firing).order = none ∧ (atDebugOp 0xA4 false).Inv :=
  ⟨by decide +kernel, by decide +kernel, by decide +kernel, by decide +kernel, by decide +kernel, by decide +kernel, ⟨by decide +kernel, rfl⟩⟩

/-! ### What memory leaves and brings (R130 to R134, R203, R248) -/

/-- A two by two tile stored to rows 0 and 1 of the FP64 object from column 2 on, whose rows are all issued. -/
def access4 : Access := mkAccess part0 (slotOf (.tst ao) 5 0) 5 tensor [2, 0, 0, 0, 0, 0] [0, 1] 2 (tokOf 0 1 four).w0 0
/-- Its state, and that of a load of the same elements into the tile's place. -/
def atStore (j : Job) (cls kind : Nat) : State :=
  let s := atBank (chest4 cls kind 5) j (0x10000 + 16) (leBytes 8 0x4014000000000000 ++ leBytes 8 0x4018000000000000)
  { putTile s 1 four with ck := 2 }
/-- The descriptor of a two by two tile of FP64 elements in that place. -/
def loadDesc : Word := Desc.word { Desc.ofWords (tokOf 0 1 four).w0 0 with e16 := true, p := 7 }
/-- The loading firing, with the tile's place as its result. -/
def loadFiring : Firing := { firing7 (.load access4) with outs := [{ codes := [1, 0], val := .tile loadDesc 0 false, col := 0, tag := 0 }] }
/-- The load. -/
def atLoad : State := flowing (atStore (.load access4) 0 0) fun w => { w with firings := [loadFiring] }
/-- SLD of one element of it. -/
def scalarAccess : Access := { access4 with rows := [0], cols := 1, desc := 0 }
/-- Its state. -/
def atSld : State := atStore (.scalarLoad scalarAccess) 0 2

theorem test_memory_data :
    shown (exec (.memoryResponseArrival 0 0 4) (atStore (.store access4) 1 1)) (fun t => ([0x10010, 0x10018, 0x10210, 0x10218, 0x10008, 0x10020].map fun a => t.readNat a 8))
      = some [0x3FF0000000000000, 0x4000000000000000, 0x4008000000000000, 0x4010000000000000, 0, 0]
    ∧ shown (exec (.memoryResponseArrival 0 0 4) atLoad) (fun t => (readTile (Desc.ofWords loadDesc 0) (t.tileBytes 0 (Desc.ofWords loadDesc 0))).vals.map encodeFp64)
      = some [0x4014000000000000, 0x4018000000000000, 0, 0]
    ∧ response atSld = some [(1, [.scalar 0x4014000000000000 false])] ∧ response { atSld with ecc := [0x10012] } = some [(1, [.scalar 0 true])]
    ∧ response { atLoad with ecc := [0x10212] } = some [(1, [.tile loadDesc 0 true])] := by
  decide +kernel

theorem test_hyps_memory_data :
    Outstanding (atStore (.store access4) 1 1) (chest4 1 1 5) (firing7 (.store access4)) ∧ Outstanding atLoad (chest4 0 0 5) loadFiring
    ∧ Outstanding atSld (chest4 0 2 5) (firing7 (.scalarLoad scalarAccess)) ∧ LocalAccess atLoad (chest4 0 0 5) access4
    ∧ atLoad.issuedRows loadFiring = 2 ∧ (let k := Desc.ofWords loadDesc 0; (k.rows, k.cols, k.kind, k.e16, k.p) = (2, 2, fmtPlane access4.obj.fmt))
    ∧ (List.range 4).map (placeOf atLoad access4 false) = [0x10010, 0x10018, 0x10210, 0x10218].map (fun a => some [(a, 0, 64)])
    ∧ (List.range 4).map (storedValue (atStore (.store access4) 1 1) (firing7 (.store access4)) access4)
      = [0x3FF0000000000000, 0x4000000000000000, 0x4008000000000000, 0x4010000000000000].map (fun v => some [v])
    ∧ storedValue atSst (firing7 (.scalarStore int3 10 false)) int3 0 = some [10] ∧ scalarAccess.cells.length = 1
    ∧ scalarPayload scalarAccess.obj.fmt scalarAccess.mode (loadedValue atSld scalarAccess 0) = 0x4014000000000000 :=
  ⟨outstanding_of (x := ctxG) ⟨by decide +kernel, rfl⟩ (by decide +kernel), outstanding_of (x := ctxG) ⟨by decide +kernel, rfl⟩ (by decide +kernel),
    outstanding_of (x := ctxG) ⟨by decide +kernel, rfl⟩ (by decide +kernel), ⟨by decide +kernel, by decide +kernel, rfl⟩, by decide +kernel, by decide +kernel,
    by decide +kernel, by decide +kernel, by decide +kernel, by decide +kernel, by decide +kernel⟩

theorem test_damage : Damaged { atSld with ecc := [0x10012] } scalarAccess 0 ∧ ¬ Damaged atSld scalarAccess 0 :=
  ⟨⟨0, [(0x10010, 0, 64)], by decide, by decide +kernel, ⟨_, List.mem_singleton.mpr rfl, by decide +kernel⟩⟩, fun ⟨_, _, _, _, _, _, h⟩ => by
    have : atSld.ecc = [] := by decide +kernel
    simp [State.pieceEcc, State.eccHit, this] at h⟩

/-- RPUSH of the tile to an empty ring. -/
def atTilePush : State :=
  putTile (atBank (chest4 2 7 6) (.push 6 ring (tokOf 0 1 four).w0 0 0 0) 0x50000 (leBytes 16 0)) 1 four

theorem test_push_data :
    shown (exec (.ringOpPerform 0 0 4) atTilePush) (fun t => ((List.range 5).map (fun k => t.readNat (0x50040 + 8 * k) 8), t.readNat (0x50000 + 64 + 2048) 8)) =
      some ([0x3FF0000000000000, 0x4000000000000000, 0x4008000000000000, 0x4010000000000000, 0], 2 * 2^11 + 2 * 2^4)
    ∧ (Desc.ofWords (tokOf 0 1 four).w0 0).rows * (Desc.ofWords (tokOf 0 1 four).w0 0).cols * fmtBits ring.fmt ≤ 8 * dim ring.shape 1 := by
  decide +kernel

/-- The table of tags of object 5's memory is full. -/
def fullTags : State :=
  let s := atHub tensor .shop (some 7)
  { s with msys := { s.msys with tags := List.replicate 4096 { bank := bankKey tensor.base, dev := none, tag := 1, result := 0, ok := true, flags := 0 } } }

theorem test_hub_waits :
    shown (exec (.hubCommandPerform 0) fullTags) (fun t => (t.obj? 5, t.msys.hub.length)) = some (some tensor, 1) ∧ ¬ TagRoom fullTags (bankKey tensor.base)
    ∧ TagRoom (atHub tensor .shop (some 7)) (bankKey tensor.base) ∧ atOrres.held 0 = false
    ∧ ((atNmiv 0).msys.chest.filterMap (atNmiv 0).invocation?).all (fun q => !(atNmiv 0).asksAway q) = true := by
  unfold TagRoom
  decide +kernel

/-! ### What single clauses ask: halts, other devices and management (R142, R143, R193, R207, R295, R306, R344, R348, R361) -/

/-- A HAD of one row, halted after one of its two ck. -/
def midHad : Firing := { vFiring with op := 0x7C, occ := 2, due := 2, outs := [{ codes := [1], val := .tile ((xf 1 [0, 0]).desc false) 0 false, col := 0, tag := 0 }] }
/-- The context is halting. -/
def atMidRow (ck : Nat) : State := flowing { inPhase .halting [pageCause] with ck := ck } fun w => { w with firings := [midHad] }
/-- VADD of five rows, one ck after its start. -/
def fiveRows : Firing := { midHad with op := 0x48, outs := [{ codes := [1], val := .tile ((xf 5 (List.replicate 10 0)).desc false) 0 false, col := 0, tag := 0 }] }

theorem test_row_boundaries :
    (atMidRow 1).flow.firings.any ((atMidRow 1).midRow 0 0 1) = true ∧ shown (exec (.engineStop 0 0 1) (atMidRow 1)) (fun t => t.cores.map fun y => y.stops.length) = some [0]
    ∧ (atMidRow 0).flow.firings.any ((atMidRow 0).midRow 0 0 1) = false
    ∧ shown (exec (.engineStop 0 0 1) (flowing (atMidRow 1) fun w => { w with firings := [fiveRows] })) (fun t => t.flow.firings.map fun f => (f.phase, f.prog)) = some [(.stopped, 4)] := by
  decide +kernel

/-- Context 1 runs in granules 8 to 15 of core 0, where those of the saved context 0 lie. -/
def atHolder : State :=
  let a : Alloc := { core := 0, idx := 1, base := 8, len := 8, refs := 1, ctx := 0 }
  let s := flowing savedTwo fun w => { w with allocs := [{ a with idx := 2, ctx := 1 }] }
  { s with ctxs := s.ctxs ++ [{ ctx0 with id := 1 }]
           cores := s.cores.map fun y => { y with part := y.part.map fun p => if y.core = 0 then { p with allocs := [a] } else p } }

theorem test_restore_preempts :
    shown (exec (.contextRestore 0 0) atHolder) (fun t => (t.ctxs.map fun x => x.causes.map (·.kind), t.cores.map fun y => y.part.isSome)) = some ([[], [35]], [true, true])
    ∧ (atHolder.ctx? 1).map (·.phase) = some .resident ∧ (atHolder.cctx? 0 0).bind (·.part) = some { saved0 with allocs := [{ core := 0, idx := 1, base := 8, len := 8, refs := 1, ctx := 0 }] } := by
  decide +kernel

/-- `dolz` holds the context of a token that has come from device 4. -/
def atHeldPacket : State :=
  let s := atFabric runPort [packet 4 0]
  { s with ctxs := s.ctxs.map fun x => { x with dolz := true, watch := { x.watch with held := some 0 } } }

theorem test_held_packets :
    atHeldPacket.heldPacket (packet 4 0) = true ∧ shown (exec (.fabricPacketForward 0) atHeldPacket) (fun t => (t.flow.net.length, t.fabric.packets.length)) = some (0, 1)
    ∧ (atFabric runPort [packet 4 0]).heldPacket (packet 4 0) = false ∧ base.held refusedTok.tok.ctx = false := by
  decide +kernel

/-- A ticketed entry whose object has been replaced since, so that it does not translate again. -/
def atStale : State :=
  let s := atBench { bench7 with st := 1, ticket := 17, ticketed := true } storeJob
  { s with msys := { s.msys with chest := s.msys.chest.map fun e => { e with gen := 3 } } }

theorem test_stale_replay :
    shown (exec (.replayNotice 17) atStale) (fun t => (t.msys.bench.length, t.fabric.packets.length, t.flow.seals.length)) = some (0, 0, 1)
    ∧ atStale.retranslate 5 3 = none ∧ (atBench bench7 storeJob).retranslate 5 1 = some tensor
    ∧ (∀ q ∈ atStale.msys.bench, q.noticed 0 0 bench7.owner 17 = true → q.st = 1 ∧ q.core = 0) ∧ serving.freeRun 0x200000 sparse.blockLen = true ∧ sparse.blockLen = 32768 := by
  decide +kernel

/-- TKCL of block 7 over a proxy, with an entry made through another proxy of the same object of device 3. -/
def atTkcl : State :=
  let s := atMem (.tkcl a0) 5 7 (some a7) none
  let proxy : ObjRec := { tensor with owner := 3, base := 12 }
  { s with msys := { s.msys with objs := [(5, proxy), (9, proxy)], bench := [{ bench7 with handle := 9, owner := 3, ohandle := 12, blocks := [7], st := 1, block := 7, ticketed := true, ctx := 0 }] } }

theorem test_tkcl_other_proxy : shown (exec (.tkcl a0) atTkcl) (fun t => t.msys.bench.length) = some 0 := by
  decide +kernel

/-- A request on page 0 of the control core that has been saved from core 0. -/
def atSavedPage (op : Nat) : State :=
  let s := asking op [0]
  { s with ctxs := [ctxIn .saved []], cores := [{ part0 with part := some { saved0 with ctl := some { Ctl.reset 0 with owner := some 0, exec := 1 } } }] }

theorem test_saved_page :
    shown (exec .removeExecute (atSavedPage 4)) (fun t => (t.cores.map fun y => (y.part.bind (·.ctl)).map (·.exec), t.readNat 0x100008 8)) = some ([some 0], 2^63)
    ∧ HasCtl (atSavedPage 4) 0 0 { Ctl.reset 0 with owner := some 0, exec := 1 } (0x300000 + 122880)
    ∧ HasCtl (asking 3 [0]) 0 0 ((asking 3 [0]).ctl 0) (coreKey 0 0) ∧ HasNoCtl (asking 3 [1]) 0 1 :=
  ⟨by decide +kernel, .inr ⟨_, _, _, rfl, rfl, rfl, rfl, rfl, rfl⟩,
    .inl ⟨fun y h => part_none y h, rfl, by decide +kernel, by decide +kernel, rfl⟩, ⟨fun y p h => (no_part y h).elim, fun _ => by decide +kernel⟩⟩
where
  part_none (y : CoreCtx) (h : (asking 3 [0]).cctx? 0 0 = some y) : y.part = none := by
    have h' : (asking 3 [0]).cctx? 0 0 = some part0 := by decide +kernel
    rw [h'] at h
    cases h
    rfl
  no_part (y : CoreCtx) (h : (asking 3 [1]).cctx? 0 1 = some y) : False := by
    have h' : (asking 3 [1]).cctx? 0 1 = none := by decide +kernel
    rw [h'] at h
    cases h

/-- Stream 1 of core 0 to core 3 takes 8 entries, and another path of it is asked for; or it is withdrawn for context 0 or 1. -/
def atStream (op : Nat) (ctx : Nat) : State :=
  let s := asking op [ctx + 2^17 + 8 * 2^21, 2^63 + (if op = 1 then 2 else 3)]
  { s with host := { s.host with streams := [{ ctx := 0, core := 0, id := 1, target := BitVec.ofNat 64 (2^63 + 3), links := streamLinks 0 (BitVec.ofNat 64 (2^63 + 3)), entries := List.range 8, byLid := none }] } }

theorem test_streams :
    shown (exec .admitStream (atStream 1 0)) (fun t => t.host.streams.map (·.entries)) = some [List.range 8, List.range 8]
    ∧ shown (exec .withdrawStream (atStream 2 0)) (fun t => t.host.streams.length) = some 0
    ∧ shown (exec .withdrawStream { atStream 2 1 with cores := [part0, { part0 with ctx := 1 }] }) (fun t => t.host.streams.length) = some 1
    ∧ (streamLinks 0 (BitVec.ofNat 64 (2^63 + 3))).any (streamLinks 0 (BitVec.ofNat 64 (2^63 + 2))).contains = true := by
  decide +kernel

theorem test_stv_words :
    shown (exec (.stv 8 3 .w4 0) (atCtl fun c => (c.setReg 8 1).setReg 9 2)) (fun t => (t.ctl 0).sbuf.map fun w => (w.addr, w.bytes.length))
      = some ((List.range 4).map fun i => (coreKey 0 (0x1000000 + 8 * i), 8)) := by
  decide +kernel

/-- An event of core 0 finds the trap of a comparator's handler armed again. -/
theorem test_trap_rearms : (Ctl.trap { Ctl.reset 0 with brkPassed := true } true 16 0 0).brkPassed = false := by
  decide +kernel

end Sys2Proof.Tests
end

section
/-! SUPPORT. Control-core instructions that change only their control core (R99, R102 to R106): the rules that their statements share, and
the statements of MOV, the branches, the jumps and the hardware loop. -/

namespace Sys2Proof.Machine

open Sys2Proof.Claims

/-! ### From the state an instruction answers to what is claimed of it -/

/-- Putting a control core back changes that control core and nothing else. -/
theorem onlyCtl_setCtl (s : State) (c : Ctl) : OnlyCtl s (s.setCtl c) c.core where
  bytes _ := rfl
  others j hj := by rw [State.ctl_setCtl, if_neg hj]
  rest := rfl

theorem leavesAt_of_setCtl {i : Instr} {s : State} {d : Ctl} {k : Nat} (hk : d.core = k) (hx : exec i s = .next (s.setCtl d)) :
    LeavesAt k i s d := by
  subst hk
  exact ⟨_, hx, onlyCtl_setCtl s d, by rw [State.ctl_setCtl, if_pos rfl]⟩

@[simp] theorem State.running_core (s : State) : s.running.core = s.lastRun := State.ctl_core s s.lastRun

/-- An instruction that jumps leaves its control core at the target (R106: no end check). -/
theorem leaves_of_jumpTo {i : Instr} {s : State} {c : Ctl} {p : Word} (hl : s.log = [])
    (hx : exec i s = jumpTo s c p) (hc : c.core = s.lastRun) : Leaves i s { c with pc := p } :=
  leavesAt_of_setCtl hc (hx.trans (jumpTo_next hl c p))

/-- An instruction that raises a synchronous cause outside a handler leaves its control core in the trap (R93). -/
theorem leavesAt_of_trapAt {i : Instr} {s : State} {c : Ctl} {k code : Nat} {tval : Word} (hl : s.log = [])
    (hx : exec i s = trapAt s c code tval) (hh : c.hnd = false) (hc : c.core = k) : LeavesAt k i s (c.trap false code c.pc tval) :=
  leavesAt_of_setCtl hc (hx.trans (trapAt_next hl c hh code tval))

@[simp] theorem Ctl.advance_reg (c0 c : Ctl) (r : Reg) : (c0.advance c).reg r = c.reg r := by
  unfold Ctl.reg
  rw [Ctl.advance_regs]

theorem atEnd_iff (c : Ctl) : atEnd c = true ↔ c.lact = true ∧ c.pc = c.lend := by
  simp [atEnd]

/-- Completing an instruction whose effect is a new register file is what R106 says, one field at a time. -/
theorem completed_advance (c : Ctl) (v : Vector Word 32) {w : Reg → Option Word}
    (hregs : ∀ r, Ctl.reg { c with regs := v } r = if r = 0 then 0 else (w r).getD (c.reg r)) :
    Completed c (c.advance { c with regs := v }) w := by
  have hreg (r : Reg) := (Ctl.advance_reg c { c with regs := v } r).trans (hregs r)
  obtain ⟨he, h1, ha⟩ | ⟨he, h1, ha⟩ | ⟨he, ha⟩ := Ctl.advance_cases c { c with regs := v }
  · have hend : atEnd c = true := (atEnd_iff c).mpr he
    rw [ha] at hreg ⊢
    exact ⟨hreg, by simp [hend, h1], by simp [hend, h1], by simp [h1], rfl⟩
  · have hend : atEnd c = true := (atEnd_iff c).mpr he
    rw [ha] at hreg ⊢
    exact ⟨hreg, by simp [h1], by simp [hend, h1], by simp [hend, h1], rfl⟩
  · have hend : ¬ atEnd c = true := fun h => he ((atEnd_iff c).mp h)
    rw [ha] at hreg ⊢
    exact ⟨hreg, by simp [hend], by simp [hend], by simp [hend], rfl⟩

/-- An instruction that completes with an effect on general registers only writes them and changes nothing else. -/
theorem writes_of_complete {i : Instr} {s : State} {d : Ctl} {w : Reg → Option Word} (hl : s.log = [])
    (hx : exec i s = complete s s.running d) (hrest : { d with regs := s.running.regs } = s.running)
    (hregs : ∀ r, d.reg r = if r = 0 then 0 else (w r).getD (s.running.reg r)) : Writes i s w := by
  have hd : d = { s.running with regs := d.regs } := by rw [← hrest]
  have hcore : (s.running.advance d).core = s.lastRun := by rw [hd]; simp
  obtain ⟨t, ht, honly, hctl⟩ := leavesAt_of_setCtl hcore (hx.trans (complete_next hl _ d))
  refine ⟨t, ht, honly, ?_⟩
  rw [hctl, hd]
  exact completed_advance s.running d.regs fun r => hd ▸ hregs r

/-! ### Groups of registers (R56, R99) -/

theorem Ctl.setGroup_rest (c : Ctl) (d : Reg) (vs : List Word) : { c.setGroup d vs with regs := c.regs } = c := by
  induction vs generalizing c d with
  | nil => rfl
  | cons v t ih =>
    have ht := ih (c.setReg d v) (d + 1)
    have hv := Ctl.setReg_rest c d v
    rw [← ht] at hv
    exact hv

/-- A register after a write of a group that does not pass g31: the group's value there, or what it was. -/
theorem Ctl.reg_setGroup (c : Ctl) (d r : Reg) (vs : List Word) (hfit : d.toNat + vs.length ≤ 32) :
    (c.setGroup d vs).reg r
      = if r = 0 then 0 else if d.toNat ≤ r.toNat ∧ r.toNat < d.toNat + vs.length then vs.getD (r.toNat - d.toNat) 0 else c.reg r := by
  induction vs generalizing c d with
  | nil =>
    rw [Ctl.setGroup, List.length_nil]
    by_cases hr : r = 0
    · rw [if_pos hr, hr, Ctl.reg_zero]
    · rw [if_neg hr, if_neg (by omega)]
  | cons v t ih =>
    rw [List.length_cons] at hfit ⊢
    have hnext : (d + 1).toNat = d.toNat + 1 ∨ (d + 1).toNat = 0 ∧ t.length = 0 := by
      have hmod : (d + 1).toNat = (d.toNat + 1) % 32 := BitVec.toNat_add d 1
      omega
    rw [Ctl.setGroup, ih _ _ (by omega), Ctl.reg_setReg]
    by_cases hr : r = 0
    · simp [hr]
    by_cases hd : r = d
    · subst hd
      rw [if_neg hr, if_neg hr, if_neg (by omega), if_neg hr, if_pos rfl, if_pos (by omega)]
      simp
    have hne : r.toNat ≠ d.toNat := fun e => hd (BitVec.eq_of_toNat_eq e)
    rw [if_neg hr, if_neg hr, if_neg hr, if_neg hd]
    by_cases hin : d.toNat ≤ r.toNat ∧ r.toNat < d.toNat + (t.length + 1)
    · obtain ⟨k, hk⟩ : ∃ k, r.toNat = d.toNat + 1 + k := ⟨r.toNat - d.toNat - 1, by omega⟩
      have hd1 : (d + 1).toNat = d.toNat + 1 := by omega
      rw [if_pos hin, if_pos (by omega), hd1, hk, Nat.add_sub_cancel_left, Nat.add_assoc, Nat.add_sub_cancel_left, Nat.add_comm 1 k,
        List.getD_cons_succ]
    · rw [if_neg hin, if_neg (by omega)]

/-- The value of a group in the place of its register r is that of the register as far from the group's start. -/
theorem Ctl.getD_group (c : Ctl) (d a r : Reg) {n : Nat} (hd : d.toNat ≤ r.toNat) (hn : r.toNat < d.toNat + n) :
    (c.group a n).getD (r.toNat - d.toNat) 0 = c.reg (a + (r - d)) := by
  have hoff : BitVec.ofNat 5 (r.toNat - d.toNat) = r - d := by
    apply BitVec.eq_of_toNat_eq
    rw [BitVec.toNat_ofNat, BitVec.toNat_sub_of_le hd, Nat.mod_eq_of_lt (by omega)]
  have hlt : r.toNat - d.toNat < n := by omega
  simp [Ctl.group, groupReg, hoff, hlt]

theorem Width.fits_iff (w : Width) (r : Reg) : w.fits r = true ↔ r.toNat % w.size = 0 := by
  simp [Width.fits]

/-- An aligned group does not pass g31 (R56). -/
theorem aligned_group_fits {w : Width} {r : Reg} (h : r.toNat % w.size = 0) : r.toNat + w.size ≤ 32 := by
  have hr := r.isLt
  cases w <;> simp only [Width.size] at h ⊢ <;> omega

/-- Aligned groups of one size are equal or disjoint (R99). -/
theorem aligned_groups_eq_or_disjoint {w : Width} {d a : Reg} (hd : d.toNat % w.size = 0) (ha : a.toNat % w.size = 0) :
    a = d ∨ a.toNat + w.size ≤ d.toNat ∨ d.toNat + w.size ≤ a.toNat := by
  rw [← BitVec.toNat_inj]
  cases w <;> simp only [Width.size] at hd ha ⊢ <;> omega

theorem wf_mov_iff (d a : Reg) (w : Width) :
    Instr.wf (.mov d a w) = true ↔ d.toNat % w.size = 0 ∧ a.toNat % w.size = 0 := by
  rw [← Width.fits_iff, ← Width.fits_iff]
  exact Bool.and_eq_true_iff

theorem exec_mov (d a : Reg) (w : Width) (s : State) :
    exec (.mov d a w) s = complete s s.running (s.running.setGroup d (s.running.group a w.size)) := rfl

/-- What MOV completes with (R99): the destination group holds what the source group held. -/
theorem mov_writes {d a : Reg} {w : Width} {s : State} (hl : s.log = []) (hd : d.toNat % w.size = 0) :
    Writes (.mov d a w) s fun r =>
      if d.toNat ≤ r.toNat ∧ r.toNat < d.toNat + w.size then some (s.running.reg (a + (r - d))) else none := by
  refine writes_of_complete hl (exec_mov d a w s) (Ctl.setGroup_rest _ _ _) fun r => ?_
  have hlen : (s.running.group a w.size).length = w.size := by simp [Ctl.group]
  rw [Ctl.reg_setGroup _ _ _ _ (by rw [hlen]; exact aligned_group_fits hd), hlen]
  by_cases hin : d.toNat ≤ r.toNat ∧ r.toNat < d.toNat + w.size
  · rw [if_pos hin, if_pos hin, Option.getD_some, Ctl.getD_group _ _ _ _ hin.1 hin.2]
  · rw [if_neg hin, if_neg hin, Option.getD_none]

/-- Settles O2: both groups lie between g0 and g31 by their alignment, so writing one register after another from values read before is the
copy of the whole group. -/
theorem movCopiesGroup : Obligations.MovCopiesGroup := by
  intro d a w
  refine ⟨rfl, wf_mov_iff d a w, fun h => ?_, fun s hl h => ?_⟩
  · obtain ⟨hd, ha⟩ := (wf_mov_iff d a w).mp h
    exact aligned_groups_eq_or_disjoint hd ha
  · exact mov_writes hl ((wf_mov_iff d a w).mp h).1

/-! ### Branches (R102) -/

/-- Whether a branch is taken is the comparison that R102 gives its op. -/
theorem exec_branch {i : Instr} {s : State} {b : Bool} {o : BitVec 16} (h : branchTest i s.running = some (b, o)) :
    exec i s = branch s b o := by
  cases i <;> simp only [branchTest, Option.some.injEq, Prod.mk.injEq, reduceCtorEq] at h <;> obtain ⟨rfl, rfl⟩ := h
  case beq => rfl
  case bne x y o => exact congrArg (branch s · o) (decide_not (p := s.running.reg x = s.running.reg y)).symm
  case blt => rfl
  case bge x y o => exact congrArg (branch s · o) BitVec.sle_eq_not_slt.symm
  case bltu => rfl
  case bgeu x y o => exact congrArg (branch s · o) (BitVec.ule_eq_not_ult _ _).symm

/-- A register write that discards every value leaves each register as it is, and g0 at 0 (R83). -/
theorem Ctl.reg_unwritten (c : Ctl) (r : Reg) : c.reg r = if r = 0 then 0 else (none : Option Word).getD (c.reg r) := by
  by_cases hr : r = 0
  · rw [if_pos hr, hr, Ctl.reg_zero]
  · rw [if_neg hr, Option.getD_none]

/-- Settles O3: every branch is one comparison in front of `branch`, which jumps or completes. -/
theorem branchesGoWhereTheTestSays : Obligations.BranchesGoWhereTheTestSays := by
  refine ⟨fun a b o => ⟨rfl, rfl, rfl, rfl, rfl, rfl⟩, fun i s b o hl h => ?_⟩
  have hx := exec_branch h
  cases b with
  | true => exact leaves_of_jumpTo hl hx s.running_core
  | false => exact writes_of_complete hl hx rfl (Ctl.reg_unwritten s.running)

/-! ### Jumps (R103) -/

theorem low_two_bits_zero_iff (x : Word) : x.extractLsb' 0 2 = 0 ↔ x.toNat % 4 = 0 := by
  rw [← BitVec.toNat_inj, BitVec.extractLsb'_toNat]
  rfl

theorem exec_jal (d : Reg) (o : BitVec 21) (s : State) :
    exec (.jal d o) s = jumpTo s (s.running.setReg d (s.running.pc + 4)) (s.running.pc + 4 * sext o) := rfl

theorem exec_jalr_aligned {d a : Reg} {i : BitVec 16} {s : State} (h : (s.running.reg a + sext i).toNat % 4 = 0) :
    exec (.jalr d a i) s = jumpTo s (s.running.setReg d (s.running.pc + 4)) (s.running.reg a + sext i) :=
  if_neg (not_not.mpr ((low_two_bits_zero_iff _).mpr h))

theorem exec_jalr_misaligned {d a : Reg} {i : BitVec 16} {s : State} (h : (s.running.reg a + sext i).toNat % 4 ≠ 0) :
    exec (.jalr d a i) s = trapAt s s.running 4 (s.running.reg a + sext i) :=
  if_pos fun e => h ((low_two_bits_zero_iff _).mp e)

theorem executable_eq_inExecPage (c : Ctl) (x : Word) : c.executable x.toNat = inExecPage c x := rfl

/-- A control core at an instruction boundary may go on (R85, R193). -/
theorem waitGoes_of_atBoundary {s : State} {k : Nat} (h : AtBoundary s k) : s.waitGoes (s.ctl k) = true := by
  have hheld : s.ctlHeld (s.ctl k) = false := by
    unfold State.ctlHeld State.held
    cases ho : (s.ctl k).owner with
    | none => rfl
    | some x =>
      cases hq : s.ctx? x with
      | none => simp [hq]
      | some q => simp [hq, h.free x q ho hq]
  simp [State.waitGoes, h.runs, hheld]

/-- The fetch at a boundary outside an executable page raises cause 2 (R61). -/
theorem exec_instructionFetchFault {s : State} {k : Nat} (hb : AtBoundary s k) (hp : inExecPage (s.ctl k) (s.ctl k).pc = false) :
    exec (.instructionFetchFault k) s = trapAt s (s.ctl k) 2 (s.ctl k).pc := by
  have hgo : ¬ (s.waitGoes (s.ctl k) = false ∨ (s.ctl k).wait ≠ .none) := by simp [waitGoes_of_atBoundary hb, hb.waits]
  exact (if_neg hgo).trans (if_pos ((executable_eq_inExecPage _ _).trans hp))

/-- Settles O4: a jump goes to its target whatever stands there, and the fetch that follows is what finds the page not executable. -/
theorem jumpsLinkAndGo : Obligations.JumpsLinkAndGo := by
  refine ⟨fun d a o i => ⟨rfl, rfl, beq_iff_eq⟩, fun s k hl hb hh hp => ?_, fun s d a o i hl => ?_⟩
  · exact leavesAt_of_trapAt hl (exec_instructionFetchFault hb hp) hh (s.ctl_core k)
  · have hlink : (s.running.setReg d (s.running.pc + 4)).core = s.lastRun := by simp
    refine ⟨leaves_of_jumpTo hl (exec_jal d o s) hlink, fun hx => ?_, fun hx hh => ?_⟩
    · exact leaves_of_jumpTo hl (exec_jalr_aligned hx) hlink
    · exact leavesAt_of_trapAt hl (exec_jalr_misaligned hx) hh s.running_core

/-! ### The hardware loop (R104, R105) -/

theorem exec_loop_arms {a : Reg} {o : BitVec 16} {s : State} (h : s.running.reg a ≠ 0) :
    exec (.loop a o) s = jumpTo s ({ s.running with lstart := s.running.pc + 4, lend := s.running.pc + 4 * sext o,
                                                    lcount := s.running.reg a }.setLact true) (s.running.pc + 4) :=
  if_neg h

theorem exec_loop_skips {a : Reg} {o : BitVec 16} {s : State} (h : s.running.reg a = 0) :
    exec (.loop a o) s = jumpTo s ({ s.running with lcount := 0 }.setLact false) (s.running.pc + 4 * sext o + 4) :=
  if_pos h

theorem exec_loopx (s : State) :
    exec .loopx s = jumpTo s ({ s.running with lcount := 0 }.setLact false) (s.running.pc + 4) := rfl

theorem wf_loop_iff (a : Reg) (o : BitVec 16) : Instr.wf (.loop a o) = true ↔ 1 ≤ o.toInt := decide_eq_true_iff

theorem controlOf_loopx_op {w : BitVec 32} (h : w.extractLsb' 26 6 = 0x1F) :
    controlOf w = if w.extractLsb' 0 26 = 0 then some .loopx else none := by
  simp [controlOf, h]

/-- Of the words of op 0x1F the one with [25:0] = 0 is 0x7C00_0000 (R105). -/
theorem loopx_word_iff {w : BitVec 32} (h : w.extractLsb' 26 6 = 0x1F) : w.extractLsb' 0 26 = 0 ↔ w = 0x7C000000 := by
  constructor
  · intro hz
    have hw : w.extractLsb' 26 6 ++ w.extractLsb' 0 26 = w := by
      rw [BitVec.extractLsb'_append_extractLsb'_eq_extractLsb' (by rfl), BitVec.extractLsb'_eq_self]
    rw [← hw, h, hz]
    rfl
  · rintro rfl
    rfl

theorem decodeControl_loopx_op {w : BitVec 32} (h : w.extractLsb' 26 6 = 0x1F) :
    decodeControl w = if w = 0x7C000000 then some .loopx else none := by
  unfold decodeControl
  rw [controlOf_loopx_op h]
  by_cases hw : w = 0x7C000000
  · rw [if_pos ((loopx_word_iff h).mpr hw), if_pos hw]
    rfl
  · rw [if_neg fun e => hw ((loopx_word_iff h).mp e), if_neg hw]

/-- Settles O5: LOOP and LOOPX are jumps to the next word or past the body, so none of them makes the end check. -/
theorem loopArmsAndSkips : Obligations.LoopArmsAndSkips := by
  refine ⟨fun a o => ⟨rfl, wf_loop_iff a o⟩, fun w => decodeControl_loopx_op, fun s a o hl => ⟨fun h => ?_, fun h => ?_, ?_⟩⟩
  · exact (leaves_of_jumpTo hl (exec_loop_arms (o := o) h) s.running_core :)
  · exact (leaves_of_jumpTo hl (exec_loop_skips (o := o) h) s.running_core :)
  · exact (leaves_of_jumpTo hl (exec_loopx s) s.running_core :)

end Sys2Proof.Machine
end
